-- ==== Sys2Proof/Word.lean ====
section
/-! DEFINITION. The widths of the words PXP moves, and the tagged words of its ports (spec/30_encoding.md R60).
PXP has no instruction stream: a word is known by the port it stands on (30 section 7). -/

namespace Sys2Proof

/-- One palette index, one packed byte (00 R5 `IDX_W`, `OUT_BYTE_W`). -/
abbrev Byte := BitVec 8

/-- A configuration register's stored value and a sequencer counter (00 R5 `DIM_W`). -/
abbrev Half := BitVec 16

/-- A host register word (00 R5 `REG_W`). -/
abbrev Word := BitVec 32

/-- A word together with the port it stands on (30 R60). The CMD format is the `data` of a REG bundle with index 0 and is
no port of its own. SEQ is the selector the sequencer decodes and is never transmitted (30 R75). -/
inductive PortWord where
  /-- Request bundle of the register port, `{we[36], idx[35:32], data[31:0]}` (30 R61). -/
  | reg (bundle : BitVec 37)
  /-- One transfer on the pixel input stream (30 R74). -/
  | pix (pixel : Byte)
  /-- One transfer on the byte output stream; the host sends nothing, the byte is what it receives (40 R87). -/
  | byte (bus : Byte)
  /-- The step selector `{PHASE[7:6], PIXV[5], EOLC[4], DEPTH[3:0]}` (30 R75). -/
  | seq (selector : BitVec 8)
  deriving DecidableEq, Repr

end Sys2Proof
end

