-- ==== Sys2Proof/Syntax.lean ====
section
/-! DEFINITION. The operations of PXP: one constructor per row of spec/opcode_table.json. -/

namespace Sys2Proof

/-- The 16 operations (INDEX.md "Files"). Bits that a format carries and its rule does not look at are kept as operands,
so that no bit of an encoding is lost (log entry 10). -/
inductive Instr where
  /-- REGRD, register read (40 R81); `data` is carried and not looked at (30 R61). -/
  | regrd (idx : BitVec 4) (data : Word)
  /-- REGWR, register write (40 R82). -/
  | regwr (idx : BitVec 4) (data : Word)
  /-- NOP, command word 0 (43 R127). -/
  | nop
  /-- PLAN, command word 1 (41 R99). -/
  | plan
  /-- RAST, command word 2 (43 R128). -/
  | rast
  /-- RENDER, command word 3 (43 R129). -/
  | render
  /-- ABORT, command word 4 (43 R130). -/
  | abort
  /-- PIXPUSH, offer one pixel (40 R86). -/
  | pixpush (pixel : Byte)
  /-- BYTEPOP, take one output byte (40 R87); `bus` is what stands on the port and is not looked at. -/
  | bytepop (bus : Byte)
  /-- FETCH (43 R134); `d` is the selector's DEPTH field, not looked at. -/
  | fetch (d : BitVec 4)
  /-- INSERT.1 (43 R136); `e` is the selector's EOLC bit, not looked at. -/
  | insert1 (e : Bool)
  /-- INSERT.2 (43 R137). -/
  | insert2 (e : Bool)
  /-- INSERT.4 (43 R138). -/
  | insert4 (e : Bool)
  /-- INSERT.8 (43 R139). -/
  | insert8 (e : Bool)
  /-- EOL (43 R140); `d` is the selector's DEPTH field, not looked at. -/
  | eol (d : BitVec 4)
  /-- EMIT (43 R141); `p`, `e`, `d` are the selector's PIXV, EOLC and DEPTH fields, not looked at. -/
  | emit (p e : Bool) (d : BitVec 4)
  deriving DecidableEq, Repr

end Sys2Proof
end

