-- ==== Sys2Proof/WellFormed.lean ====
section
/-! DEFINITION. Which terms of `Instr` are the reading of some word. -/

namespace Sys2Proof

/-- A REGWR to index 0 whose word is an assigned command is spelled as that command (30 R62; the table's REGWR row:
"0 dispatches to the CMD rows"), so as a `regwr` it is ill-formed: no word decodes to it. Every other term is the reading
of exactly one word: all `2^37` bundles are legal (30 R61) and the other formats' operands are not looked at. -/
def Instr.wellFormed : Instr → Bool
  | .regwr idx data => !(idx == 0#4 && decide (data.toNat ≤ 4))
  | _ => true

/-- `Instr.wellFormed` as a proposition. -/
abbrev Instr.WellFormed (i : Instr) : Prop := i.wellFormed = true

end Sys2Proof
end

