-- ==== Sys2Proof/Decode.lean ====
section
/-! DEFINITION. Decoding: from a tagged word of spec/30_encoding.md to an operation or a rejection by name, and the
encoder written from the same tables. -/

namespace Sys2Proof

/-- Why a word is no operation. -/
inductive DecodeError where
  /-- A CMD word of 5 or more is reserved (30 R63). -/
  | reservedCommand
  /-- Selector `00------`: the sequencer is idle and no micro-step is selected (30 R75). -/
  | seqIdle
  /-- Selector `11------`: unreachable (30 R75, 93 U7). -/
  | seqPhaseThree
  /-- Selector `011e` with a DEPTH that is none of 0001, 0010, 0100, 1000: no row (30 R75, 93 U7). -/
  | seqDepth
  deriving DecidableEq, Repr

/-- Field `we`, bit 36 of a REG bundle (30 R61). -/
def regWe (b : BitVec 37) : Bool := b.getLsbD 36

/-- Field `idx`, bits 35 to 32 of a REG bundle (30 R61). -/
def regIdx (b : BitVec 37) : BitVec 4 := b.extractLsb' 32 4

/-- Field `data`, bits 31 to 0 of a REG bundle (30 R61). -/
def regData (b : BitVec 37) : Word := b.extractLsb' 0 32

/-- The REG bundle `{we, idx, data}` (30 R60). -/
def regBundle (we : Bool) (idx : BitVec 4) (data : Word) : BitVec 37 :=
  BitVec.ofBool we ++ idx ++ data

/-- The selector `{PHASE[1:0], PIXV, EOLC, DEPTH[3:0]}` (30 R75). -/
def seqWord (phase : BitVec 2) (pixv eolc : Bool) (depth : BitVec 4) : BitVec 8 :=
  phase ++ BitVec.ofBool pixv ++ BitVec.ofBool eolc ++ depth

/-- The CMD table: all 32 bits are compared (30 R62, R63). -/
def decodeCmd (w : Word) : Except DecodeError Instr :=
  if w = 0#32 then .ok .nop
  else if w = 1#32 then .ok .plan
  else if w = 2#32 then .ok .rast
  else if w = 3#32 then .ok .render
  else if w = 4#32 then .ok .abort
  else .error .reservedCommand

/-- The REG format. A write to index 0 is read by the CMD table, and stays a REGWR where that word is reserved. -/
def decodeReg (b : BitVec 37) : Instr :=
  if regWe b then
    if regIdx b = 0#4 then
      match decodeCmd (regData b) with
      | .ok i => i
      | .error _ => .regwr (regIdx b) (regData b)
    else .regwr (regIdx b) (regData b)
  else .regrd (regIdx b) (regData b)

/-- The INSERT rows, selected by the DEPTH field (30 R75). -/
def decodeInsert (e : Bool) (d : BitVec 4) : Except DecodeError Instr :=
  if d = 1#4 then .ok (.insert1 e)
  else if d = 2#4 then .ok (.insert2 e)
  else if d = 4#4 then .ok (.insert4 e)
  else if d = 8#4 then .ok (.insert8 e)
  else .error .seqDepth

/-- The SEQ table (30 R75). -/
def decodeSeq (v : BitVec 8) : Except DecodeError Instr :=
  let phase : BitVec 2 := v.extractLsb' 6 2
  let p := v.getLsbD 5
  let e := v.getLsbD 4
  let d : BitVec 4 := v.extractLsb' 0 4
  if phase = 0#2 then .error .seqIdle
  else if phase = 1#2 then
    if p then decodeInsert e d
    else if e then .ok (.eol d)
    else .ok (.fetch d)
  else if phase = 2#2 then .ok (.emit p e d)
  else .error .seqPhaseThree

/-- The decoder: total on every tagged word. -/
def decode : PortWord → Except DecodeError Instr
  | .reg b => .ok (decodeReg b)
  | .pix p => .ok (.pixpush p)
  | .byte b => .ok (.bytepop b)
  | .seq v => decodeSeq v

/-- The encoder (30 R61, R62, R74, R75). A command is carried as the data of a REGWR to index 0. -/
def encode : Instr → PortWord
  | .regrd idx data => .reg (regBundle false idx data)
  | .regwr idx data => .reg (regBundle true idx data)
  | .nop => .reg (regBundle true 0#4 0#32)
  | .plan => .reg (regBundle true 0#4 1#32)
  | .rast => .reg (regBundle true 0#4 2#32)
  | .render => .reg (regBundle true 0#4 3#32)
  | .abort => .reg (regBundle true 0#4 4#32)
  | .pixpush p => .pix p
  | .bytepop b => .byte b
  | .fetch d => .seq (seqWord 1#2 false false d)
  | .insert1 e => .seq (seqWord 1#2 true e 1#4)
  | .insert2 e => .seq (seqWord 1#2 true e 2#4)
  | .insert4 e => .seq (seqWord 1#2 true e 4#4)
  | .insert8 e => .seq (seqWord 1#2 true e 8#4)
  | .eol d => .seq (seqWord 1#2 false true d)
  | .emit p e d => .seq (seqWord 2#2 p e d)

/-- The port on which a bare word of the opcode table stands. The table's words carry no port tag, so the port is told by
the width: 40 (37 bits in whole bytes) REG, 32 the data of a REGWR to `CMD`, 8 SEQ where the word's phase field is PACK or
REPLAY, and, since SEQ assigns no step to the other two phase values, PIX for `00------` and BYTE for `11------`
(DESIGN CHOICE, log entry 12). A CMD word that is reserved is no row and gives nothing. -/
def tablePort (nbits w : Nat) : Option PortWord :=
  if nbits = 40 ∨ nbits = 37 then
    if w < 2 ^ 37 then some (.reg (BitVec.ofNat 37 w)) else none
  else if nbits = 32 then
    if w ≤ 4 then some (.reg (regBundle true 0#4 (BitVec.ofNat 32 w))) else none
  else if nbits = 8 then
    if w < 64 then some (.pix (BitVec.ofNat 8 w))
    else if w < 192 then some (.seq (BitVec.ofNat 8 w))
    else if w < 256 then some (.byte (BitVec.ofNat 8 w))
    else none
  else none

/-- The instruction the decoder reads from a word of the opcode table (the host's question). -/
def decodeTableWord (nbits w : Nat) : Option Instr :=
  match tablePort nbits w with
  | some p =>
    match decode p with
    | .ok i => some i
    | .error _ => none
  | none => none

end Sys2Proof
end

