-- ==== Sys2Proof/Config.lean ====
section
/-! DEFINITION. What an instance of PXP fixes (spec/00_scope.md R5), and the free values. The two parameters the spec
leaves open, `LB_BYTES` and `OOR_MODE`, are fields of State (log entries 4 and 5); their defaults stand here. -/

namespace Sys2Proof

/-- What the packer makes of a pixel outside the palette (93 U1, parameter `OOR_MODE`). -/
inductive OorMode where
  /-- Pack `p mod 2^DEPTH`, PXP's own behaviour (42 R112, 92 D19). The default. -/
  | truncate
  /-- Every byte that holds a copy of an offending pixel is drawn freely (93 U1). -/
  | anyValue
  deriving DecidableEq, Repr

namespace Config

/-- Smallest legal palette length `PAL_MIN` (00 R5). -/
def palMin : Nat := 2

/-- Largest legal palette length `PAL_MAX` (00 R5). -/
def palMax : Nat := 256

/-- Default capacity of the line buffer, `(2^DIM_W - 1)^2` (00 R5, 92 D5). -/
def lbBytesDefault : Nat := 4294836225

/-- Default of `OOR_MODE` (93 U1). -/
def oorModeDefault : OorMode := .truncate

/-- FREE VALUE (93 U3, log entry 6): what byte `j` of the line buffer holds before anything has written it. -/
opaque lbPowerUp : Nat → BitVec 8

/-- FREE VALUE (93 U1, log entry 5): the `n`-th byte drawn with `OOR_MODE = any value`. -/
opaque freeByte : Nat → BitVec 8

end Config
end Sys2Proof
end

