-- ==== Sys2Proof/Machine/State.lean ====
section
/-! DEFINITION. Everything the spec gives PXP to hold (spec/10_state.md), the environment's side of it, and the model's own
bookkeeping; the state right after reset. Plain data throughout. -/

namespace Sys2Proof.Machine

/-- `PHASE` (10 R25). The code 3 never occurs, so it has no constructor (log entry 14). -/
inductive Phase where
  | idle
  | pack
  | replay
  deriving DecidableEq, Repr

/-- `STATUS.ERR` (60 R165). The codes 7 to 15 are never produced, so they have no constructor (93 U5, log entry 14). -/
inductive ErrCode where
  | noError
  | paletteTooBig
  | paletteTooSmall
  | zeroDim
  | lineTooLong
  | noPlan
  | badCmd
  deriving DecidableEq, Repr

/-- One turn of the interleaving (20 R48), as the environment decides it (log entry 1). -/
inductive Event where
  /-- The host puts a bundle on the register port: REGRD or REGWR (40 R81, R82). -/
  | reg (bundle : BitVec 37)
  /-- The host offers a pixel: PIXPUSH (40 R86). -/
  | pix (pixel : Byte)
  /-- The host takes a byte: BYTEPOP (40 R87). -/
  | byte (bus : Byte)
  /-- The block has its turn, with this answer of the sink (20 R45, 93 U8). -/
  | block (sinkReady : Bool)
  /-- The reset input (70 R190). -/
  | reset
  /-- The host withdraws the pixels not yet taken, PIXDROP (40 R86). -/
  | pixdrop
  deriving DecidableEq, Repr

/-- The line buffer's contents: (index, byte) pairs, indices strictly rising; an index not listed was never written. -/
abbrev Memory := List Host.Cell

/-- What stops the machine. PXP has no stopping fault of its own: a command error is a value in `STATUS.ERR` (60 R182). -/
inductive Fault where
  /-- Raised by INSERT, EOL and EMIT when the byte they access would lie at or above `LB_BYTES`, an address that does not
  exist (20 R43). Safe: unreachable (93 U7), and nothing can be proved of a run past it. -/
  | lineBufferIndex
  deriving DecidableEq, Repr

/-- Situations to which the spec gives no meaning: "A model states the invariant ... and proves these away; it does not
give them results" (93 U7). Each is unreachable, and each is safe: nothing can be proved of a run past it. -/
inductive Refusal where
  /-- Raised by an arm of `exec` whose instruction has no meaning yet. Safe. -/
  | notModelled (mnemonic : String)
  /-- Raised by a turn of the block whose selector names no micro-step: PACK, `PIXV = 1` and a DEPTH that is none of 1,
  2, 4, 8 (30 R75, 93 U7). Safe. -/
  | noMicroStep
  /-- Raised by every micro-step with `PHASE != IDLE` and `PLAN_VALID = 0` (93 U7). Safe. -/
  | busyWithoutPlan
  /-- Raised by FETCH with `COL > SRC_W` (93 U7). Safe. -/
  | colPastWidth
  /-- Raised by INSERT with `SLOT >= ppb` (93 U7). Safe. -/
  | slotPastByte
  /-- Raised by EMIT with `BIDX >= BPS` (93 U7). Safe. -/
  | bidxPastLine
  deriving DecidableEq, Repr

/-- The state. Field comments name the rule that gives the item; INVENTORY.md lists them all. -/
structure State where
  /-- Parameter `LB_BYTES` (00 R5, 92 D5); never changed by a step. -/
  lbBytes : Nat
  /-- Parameter `OOR_MODE` (93 U1); never changed by a step. -/
  oorMode : OorMode
  /-- `PAL_LEN` (10 R13). -/
  palLen : Half
  /-- `SRC_W` (10 R14). -/
  srcW : Half
  /-- `SRC_H` (10 R15). -/
  srcH : Half
  /-- `SCALE` (10 R16). -/
  scale : Half
  /-- `DEPTH` (10 R17). -/
  depth : BitVec 4
  /-- `OUT_W` (10 R18). -/
  outW : Word
  /-- `OUT_H` (10 R19). -/
  outH : Word
  /-- `BPS` (10 R20). -/
  bps : Word
  /-- `STATUS.PLAN_VALID` (10 R12). -/
  planValid : Bool
  /-- `STATUS.DONE` (10 R12). -/
  done : Bool
  /-- `STATUS.OVR` (10 R12). -/
  ovr : Bool
  /-- `STATUS.ERR` (10 R12, 60 R165). -/
  err : ErrCode
  /-- `PHASE` (10 R25). -/
  phase : Phase
  /-- `ROW` (10 R25). -/
  row : Half
  /-- `COL` (10 R25). -/
  col : Half
  /-- `HREP` (10 R25). -/
  hrep : Half
  /-- `VREP` (10 R25). -/
  vrep : Half
  /-- `SLOT` (10 R25). -/
  slot : BitVec 3
  /-- `BIDX` (10 R25). -/
  bidx : Word
  /-- `ACC` (10 R25). -/
  acc : Byte
  /-- `PIXREG` (10 R25, R26). -/
  pixreg : Byte
  /-- `PIXV` (10 R25). -/
  pixv : Bool
  /-- `LB` (10 R29). -/
  lb : Memory
  /-- `IN`, oldest first (10 R30). -/
  pixIn : List Byte
  /-- `OUT`, oldest first (10 R30). -/
  out : List Byte
  /-- The sink's answer at this turn (20 R45, log entry 3). -/
  sinkReady : Bool
  /-- The environment's coming turns, next first (20 R48, log entry 1). -/
  agenda : List Event
  /-- The host's record of REGRD replies, oldest first (30 R60, log entry 8). -/
  replies : List Word
  /-- The host's record of bytes taken, oldest first (40 R87, log entry 8). -/
  received : List Byte
  /-- With `OOR_MODE = any value`: `ACC` holds a copy of an offending pixel (93 U1, log entry 5). -/
  accTaint : Bool
  /-- How many free bytes have been drawn (93 U1, log entry 5). -/
  draws : Nat
  /-- History flag (60 R182): an error was raised or a write dropped. -/
  faultSeen : Bool
  /-- Pixels taken since the current or latest frame run began (10 R28 (d), log entry 9). -/
  taken : List Byte
  /-- Bytes pushed to `OUT` since the current or latest frame run began (10 R28 (e), log entry 9). -/
  emitted : List Byte
  deriving DecidableEq, Repr

/-- The launch state: right after reset, `IN` and `OUT` empty, no error history (70 R190, R192; 10 R33). -/
def State.reset : State where
  lbBytes := Config.lbBytesDefault
  oorMode := Config.oorModeDefault
  palLen := 0#16
  srcW := 0#16
  srcH := 0#16
  scale := 0#16
  depth := 0#4
  outW := 0#32
  outH := 0#32
  bps := 0#32
  planValid := false
  done := false
  ovr := false
  err := .noError
  phase := .idle
  row := 0#16
  col := 0#16
  hrep := 0#16
  vrep := 0#16
  slot := 0#3
  bidx := 0#32
  acc := 0#8
  pixreg := 0#8
  pixv := false
  lb := []
  pixIn := []
  out := []
  sinkReady := true
  agenda := []
  replies := []
  received := []
  accTaint := false
  draws := 0
  faultSeen := false
  taken := []
  emitted := []

end Sys2Proof.Machine
end

