-- ==== Sys2Proof/Machine/Operands.lean ====
section
/-! DEFINITION. Operand forms: the fields of a packed byte (spec/30_encoding.md R66 to R70), what a configuration write
keeps of its word (R65), and the numbers the codes stand for. -/

namespace Sys2Proof.Machine

/-- Pixels per byte, `8 div d` (30 R70, 41 R94). -/
def ppb (d : Nat) : Nat := 8 / d

/-- The shift that moves a pixel field into slot `i` (30 R70). -/
def slotShift (d i : Nat) : Nat := 8 - d * (i + 1)

/-- The low `d` bits of a pixel, `p mod 2^d` (30 R70, 42 R112). -/
def pixelField (d : Nat) (p : Byte) : Nat := p.toNat % 2 ^ d

/-- `ACC | (field << sh)`: one copy of pixel `p` put into slot `i` at depth `d` (43 R135). -/
def putPixel (d i : Nat) (acc p : Byte) : Byte :=
  acc ||| (BitVec.ofNat 8 (pixelField d p) <<< slotShift d i)

/-- The value a configuration write stores: `data[15:0]` (30 R65). -/
def configValue (data : Word) : Half := data.extractLsb' 0 16

/-- `PHASE` as the number of 10 R25. -/
def Phase.code : Phase → BitVec 2
  | .idle => 0#2
  | .pack => 1#2
  | .replay => 2#2

/-- `STATUS.ERR` as the number of 60 R165. -/
def ErrCode.code : ErrCode → BitVec 4
  | .noError => 0#4
  | .paletteTooBig => 1#4
  | .paletteTooSmall => 2#4
  | .zeroDim => 3#4
  | .lineTooLong => 4#4
  | .noPlan => 5#4
  | .badCmd => 6#4

/-- The planner's failures, codes 1 to 4 (60 R173). -/
def ErrCode.isPlanner : ErrCode → Bool
  | .paletteTooBig | .paletteTooSmall | .zeroDim | .lineTooLong => true
  | .noError | .noPlan | .badCmd => false

end Sys2Proof.Machine
end

