-- ==== Sys2Proof/Machine/Flags.lean ====
section
/-! DEFINITION. Flags computed from the state: `BUSY`, the `STATUS` word (spec/10_state.md R12, R27), and the sequencer's
selector (spec/30_encoding.md R75). PXP has no arithmetic condition codes (10 R24). -/

namespace Sys2Proof.Machine

/-- `STATUS.BUSY`: `PHASE` is PACK or REPLAY (10 R27). -/
def State.busy (s : State) : Bool :=
  match s.phase with
  | .idle => false
  | .pack => true
  | .replay => true

/-- The word a host reads at index 1 (10 R12):
`{0[31:12], ERR[3:0], 0[7:4], OVR, DONE, PLAN_VALID, BUSY}`. -/
def State.statusWord (s : State) : Word :=
  0#20 ++ s.err.code ++ 0#4 ++ BitVec.ofBool s.ovr ++ BitVec.ofBool s.done ++ BitVec.ofBool s.planValid
    ++ BitVec.ofBool s.busy

/-- `EOLC`: 1 if `COL = SRC_W` (30 R75). -/
def State.eolc (s : State) : Bool := decide (s.col = s.srcW)

/-- The step selector of the state (30 R75). -/
def State.selector (s : State) : BitVec 8 :=
  seqWord s.phase.code s.pixv s.eolc s.depth

end Sys2Proof.Machine
end

