-- ==== Sys2Proof/Machine/Ops.lean ====
section
/-! DEFINITION. The named operations over the line buffer, the registers and the streams; error entry (spec/60_exceptions.md
R173), the one counterpart PXP has of taking an exception; the clearing of flags on acceptance (43 R126); reset (70 R190).
There is no return from an error (60 R177), so nothing stands here for it. -/

namespace Sys2Proof.Machine

/-! ### The line buffer (20 R43) -/

/-- The byte listed at index `a`, or none if nothing has written it. An unlisted index has no known value. -/
def memGet : Memory → Nat → Option Byte
  | [], _ => none
  | (b, v) :: rest, a => if a = b then some v else memGet rest a

/-- `m` with byte `v` at index `a`, in canonical form. -/
def memPut : Memory → Nat → Byte → Memory
  | [], a, v => [(a, v)]
  | (b, x) :: rest, a, v =>
    if a < b then (a, v) :: (b, x) :: rest
    else if a = b then (a, v) :: rest
    else (b, x) :: memPut rest a v

/-- Canonical form: every index is above `lo` where that is given, and the indices rise strictly. -/
def memRises : Option Nat → Memory → Bool
  | _, [] => true
  | none, (a, _) :: rest => memRises (some a) rest
  | some lo, (a, _) :: rest => decide (lo < a) && memRises (some a) rest

/-- The canonical form of a memory: indices strictly rising. An unlisted index has no value, so no entry can equal one. -/
def Memory.wf (m : Memory) : Bool := memRises none m

/-- Every listed index exists: it is below `bound` (10 R29). -/
def memBelow (bound : Nat) : Memory → Bool
  | [] => true
  | (a, _) :: rest => decide (a < bound) && memBelow bound rest

/-- What an unlisted byte of `LB` reads as: a free value (93 U3, log entry 6). -/
def unlistedByte (a : Nat) : Byte := Config.lbPowerUp a

/-- `MemRead(LB, j, 1)` (20 R43). -/
def lbRead (m : Memory) (j : Nat) : Byte := (memGet m j).getD (unlistedByte j)

/-- `MemWrite(LB, BIDX, 1, v)` (20 R43); the caller has checked that the index exists. -/
def lbStore (v : Byte) (s : State) : State := { s with lb := memPut s.lb s.bidx.toNat v }

/-! ### Flags and errors -/

/-- Flag clearing on acceptance (43 R126). -/
def clearFlags (s : State) : State := { s with done := false, ovr := false, err := .noError }

/-- A host write was dropped because the block is busy (40 R83, R84; 60 R175). -/
def setOvr (s : State) : State := { s with ovr := true, faultSeen := true }

/-- The plan becomes invalid and its four registers 0 (40 R84, 60 R173). -/
def dropPlan (s : State) : State :=
  { s with planValid := false, depth := 0#4, outW := 0#32, outH := 0#32, bps := 0#32 }

/-- Error entry, `raise Error(code)` (60 R173): the code is recorded; a planner failure also drops the plan. -/
def raiseError (code : ErrCode) (s : State) : State :=
  if code.isPlanner then dropPlan { s with err := code, faultSeen := true }
  else { s with err := code, faultSeen := true }

/-- A command other than NOP and ABORT: dropped while busy, else accepted, the flags being cleared first (40 R83). -/
def acceptIdle (effect : State → State) (s : State) : State :=
  if s.busy then setOvr s else effect (clearFlags s)

/-! ### Registers (40 R81, R84) -/

/-- The reply of a REGRD, `x[idx]` (40 R81). -/
def regRead (idx : BitVec 4) (s : State) : Word :=
  match idx.toNat with
  | 1 => s.statusWord
  | 2 => s.palLen.zeroExtend 32
  | 3 => s.srcW.zeroExtend 32
  | 4 => s.srcH.zeroExtend 32
  | 5 => s.scale.zeroExtend 32
  | 6 => s.depth.zeroExtend 32
  | 7 => s.outW
  | 8 => s.outH
  | 9 => s.bps
  | _ => 0#32

/-- `reg[idx] <- v` for the configuration registers; every other index stores nothing (40 R84, R85). -/
def configStore (idx : BitVec 4) (v : Half) (s : State) : State :=
  match idx.toNat with
  | 2 => { s with palLen := v }
  | 3 => { s with srcW := v }
  | 4 => { s with srcH := v }
  | 5 => { s with scale := v }
  | _ => s

/-- REGWR to a configuration register (40 R84). -/
def configWrite (idx : BitVec 4) (data : Word) (s : State) : State :=
  if s.busy then setOvr s else dropPlan (configStore idx (configValue data) s)

/-- Whether an index is a configuration register, 2 to 5 (40 R84). -/
def isConfigIndex (idx : BitVec 4) : Bool := decide (2 ≤ idx.toNat) && decide (idx.toNat ≤ 5)

/-! ### The sequencer's variables -/

/-- `PHASE <- IDLE` and every sequencer variable 0 (43 R130, 70 R190). -/
def zeroSequencer (s : State) : State :=
  { s with
    phase := .idle, row := 0#16, col := 0#16, hrep := 0#16, vrep := 0#16, slot := 0#3, bidx := 0#32, acc := 0#8,
    pixreg := 0#8, pixv := false, accTaint := false }

/-- Reset (70 R190): registers and sequencer variables 0; `LB`, `IN` and `OUT` kept. The parameters, the environment's
side and the model's history are no registers of the block and are kept too (log entry 16). -/
def hardReset (s : State) : State :=
  zeroSequencer (clearFlags (dropPlan
    { s with palLen := 0#16, srcW := 0#16, srcH := 0#16, scale := 0#16 }))

end Sys2Proof.Machine
end

