-- ==== Sys2Proof/Machine/Planner.lean ====
section
/-! DEFINITION. The planner (spec/41_planner.md) and the PLAN command. -/

namespace Sys2Proof.Machine

/-- `depth(p)` (41 R92). Above 256 the spec gives it no value; the 8 there is a dummy that no plan uses, because the
planner fails first (93 U6, log entry 15). -/
def depthOf (p : Nat) : Nat :=
  if p ≤ 2 then 1 else if p ≤ 4 then 2 else if p ≤ 16 then 4 else 8

/-- `bps = (ow * d + 7) div 8` (41 R96), over unbounded integers. -/
def bytesPerLine (d ow : Nat) : Nat := (ow * d + 7) / 8

/-- The planner's answer: a failure with a code, or a plan `(d, ow, oh, bps)` (41 R90). -/
inductive PlanResult where
  | failure (code : ErrCode)
  | plan (d ow oh bps : Nat)
  deriving DecidableEq, Repr

/-- The planner, a pure function of `p`, `w`, `h`, `s` and the instance's `LB_BYTES` (41 R90, R99). -/
def planner (lbBytes p w h s : Nat) : PlanResult :=
  if p > Config.palMax then .failure .paletteTooBig
  else if p < Config.palMin then .failure .paletteTooSmall
  else if w = 0 ∨ s = 0 then .failure .zeroDim
  else if bytesPerLine (depthOf p) (w * s) > lbBytes then .failure .lineTooLong
  else .plan (depthOf p) (w * s) (h * s) (bytesPerLine (depthOf p) (w * s))

/-- A successful plan is written to the registers (41 R100). -/
def commitPlan (d ow oh bps : Nat) (s : State) : State :=
  { s with
    depth := BitVec.ofNat 4 d, outW := BitVec.ofNat 32 ow, outH := BitVec.ofNat 32 oh, bps := BitVec.ofNat 32 bps,
    planValid := true }

/-- The planner run on the configuration registers (41 R91). -/
def planOf (s : State) : PlanResult :=
  planner s.lbBytes s.palLen.toNat s.srcW.toNat s.srcH.toNat s.scale.toNat

/-- What an accepted PLAN does (41 R99, R100, R101). -/
def doPlan (s : State) : State :=
  match planOf s with
  | .failure code => raiseError code s
  | .plan d ow oh bps => commitPlan d ow oh bps s

/-- PLAN (41 R99): accepted while idle, dropped with `OVR` while busy. -/
def execPlan (s : State) : Host.Outcome State Fault Refusal :=
  .next (acceptIdle doPlan s)

end Sys2Proof.Machine
end

