-- ==== Sys2Proof/Machine/Commands.lean ====
section
/-! DEFINITION. The commands NOP, RAST, RENDER and ABORT (spec/43_sequencer_commands.md R127 to R130), and command issue
(spec/40_host_port_operations.md R83). -/

namespace Sys2Proof.Machine

/-- RAST from its second test on (43 R128): an empty frame is done at once, any other starts the sequencer. The model's
record of the frame run starts here too (43 R146, log entry 9). `PIXREG` keeps its stale value (10 R26). -/
def startFrame (s : State) : State :=
  if s.outH = 0#32 then { s with done := true, taken := [], emitted := [] }
  else
    { s with
      phase := .pack, row := 0#16, col := 0#16, hrep := 0#16, vrep := 0#16, slot := 0#3, bidx := 0#32, acc := 0#8,
      pixv := false, accTaint := false, taken := [], emitted := [] }

/-- What an accepted RAST does (43 R128). -/
def doRast (s : State) : State :=
  if s.planValid then startFrame s else raiseError .noPlan s

/-- What an accepted RENDER does (43 R129): the planning of PLAN, and if that succeeds RAST from its second test on. -/
def doRender (s : State) : State :=
  match planOf s with
  | .failure code => raiseError code s
  | .plan d ow oh bps => startFrame (commitPlan d ow oh bps s)

/-- What ABORT does, in every phase (43 R130, R126). -/
def doAbort (s : State) : State := zeroSequencer (clearFlags s)

/-- NOP (43 R127). -/
def execNop (s : State) : Host.Outcome State Fault Refusal := .next s

/-- RAST (43 R128). -/
def execRast (s : State) : Host.Outcome State Fault Refusal :=
  .next (acceptIdle doRast s)

/-- RENDER (43 R129). -/
def execRender (s : State) : Host.Outcome State Fault Refusal :=
  .next (acceptIdle doRender s)

/-- ABORT (43 R130). -/
def execAbort (s : State) : Host.Outcome State Fault Refusal :=
  .next (doAbort s)

/-- A reserved command word (40 R83, 60 R170): `BadCmd` while idle, with no flag cleared; dropped while busy. -/
def badCommand (s : State) : State :=
  if s.busy then setOvr s else raiseError .badCmd s

/-- REGWR to `CMD`, the command issue of 40 R83, branch by branch. -/
def issueCommand (c : Word) (s : State) : State :=
  if c = 0#32 then s
  else if c = 4#32 then doAbort s
  else if c = 1#32 then acceptIdle doPlan s
  else if c = 2#32 then acceptIdle doRast s
  else if c = 3#32 then acceptIdle doRender s
  else badCommand s

end Sys2Proof.Machine
end

