-- ==== Sys2Proof/Machine/HostPort.lean ====
section
/-! DEFINITION. The host's port operations REGRD, REGWR, PIXPUSH and BYTEPOP (spec/40_host_port_operations.md). -/

namespace Sys2Proof.Machine

/-- REGRD (40 R81): the reply goes to the host; no state of the block changes. `data` is not looked at (30 R61). -/
def execRegrd (idx : BitVec 4) (_data : Word) (s : State) : Host.Outcome State Fault Refusal :=
  .next { s with replies := s.replies ++ [regRead idx s] }

/-- REGWR (40 R82): index 0 issues a command (R83), 2 to 5 write the configuration (R84), every other index is ignored
(R85). -/
def execRegwr (idx : BitVec 4) (data : Word) (s : State) : Host.Outcome State Fault Refusal :=
  if idx = 0#4 then .next (issueCommand data s)
  else if isConfigIndex idx then .next (configWrite idx data s)
  else .next s

/-- PIXPUSH (40 R86): `IN <- IN ++ [pixel]`. -/
def execPixpush (pixel : Byte) (s : State) : Host.Outcome State Fault Refusal :=
  .next { s with pixIn := s.pixIn ++ [pixel] }

/-- BYTEPOP (40 R87): the host takes `head(OUT)`. With `OUT` empty it is not enabled and the host waits: nothing changes
(log entry 2). The bus is not looked at (log entry 10). -/
def execBytepop (_bus : Byte) (s : State) : Host.Outcome State Fault Refusal :=
  match s.out with
  | [] => .next s
  | b :: rest => .next { s with out := rest, received := s.received ++ [b] }

end Sys2Proof.Machine
end

