-- ==== Sys2Proof/Machine/Sequencer.lean ====
section
/-! DEFINITION. The micro-steps FETCH, INSERT.1, INSERT.2, INSERT.4, INSERT.8, EOL and EMIT (spec/43_sequencer_commands.md
R133 to R141). A micro-step that is not selected or not enabled is not taken: nothing changes (43 R133, log entry 2). The
situations of 93 U7 are refused by name (log entry 7). -/

namespace Sys2Proof.Machine

/-- FETCH's effect when it is enabled (43 R134). -/
def takePixel (p : Byte) (rest : List Byte) (s : State) : State :=
  { s with pixreg := p, pixv := true, hrep := 0#16, pixIn := rest, taken := s.taken ++ [p] }

/-- FETCH (43 R134); the selector's DEPTH field is not looked at. -/
def execFetch (_d : BitVec 4) (s : State) : Host.Outcome State Fault Refusal :=
  if s.phase = .pack ∧ s.pixv = false ∧ s.col ≠ s.srcW then
    if s.planValid = false then .refused .busyWithoutPlan
    else if s.srcW.toNat < s.col.toNat then .refused .colPastWidth
    else
      match s.pixIn with
      | [] => .next s
      | p :: rest => .next (takePixel p rest s)
  else .next s

/-- Whether `PIXREG` makes its byte a free one: only with `OOR_MODE = any value`, and a pixel `>= PAL_LEN` (93 U1). -/
def taints (s : State) : Bool :=
  decide (s.oorMode = .anyValue) && decide (s.palLen.toNat ≤ s.pixreg.toNat)

/-- A finished byte goes to `LB[BIDX]`: the assembled `v`, or a free byte where it is tainted (93 U1). -/
def storeByte (tainted : Bool) (v : Byte) (s : State) : State :=
  if tainted then { lbStore (Config.freeByte s.draws) s with draws := s.draws + 1 }
  else lbStore v s

/-- The second `if` of 43 R135: one more copy of the pixel is in. -/
def nextCopy (s : State) : State :=
  if s.hrep.toNat + 1 = s.scale.toNat then { s with pixv := false, hrep := 0#16, col := s.col + 1 }
  else { s with hrep := s.hrep + 1 }

/-- The first `if` of 43 R135 with the byte full: it is stored, and the next byte begins. -/
def finishByte (d : Nat) (s : State) : State :=
  { storeByte (s.accTaint || taints s) (putPixel d s.slot.toNat s.acc s.pixreg) s with
    bidx := s.bidx + 1, acc := 0#8, slot := 0#3, accTaint := false }

/-- The first `if` of 43 R135 with the byte not full. -/
def extendByte (d : Nat) (s : State) : State :=
  { s with
    acc := putPixel d s.slot.toNat s.acc s.pixreg, slot := s.slot + 1, accTaint := s.accTaint || taints s }

/-- INSERT at depth `d` (43 R135), selected when `PHASE = PACK`, `PIXV = 1` and `DEPTH = d` (30 R75). -/
def insertCopy (d : Nat) (s : State) : Host.Outcome State Fault Refusal :=
  if s.phase = .pack ∧ s.pixv = true ∧ s.depth = BitVec.ofNat 4 d then
    if s.planValid = false then .refused .busyWithoutPlan
    else if ppb d ≤ s.slot.toNat then .refused .slotPastByte
    else if s.slot.toNat + 1 = ppb d then
      if s.bidx.toNat < s.lbBytes then .next (nextCopy (finishByte d s)) else .fault .lineBufferIndex
    else .next (nextCopy (extendByte d s))
  else .next s

/-- INSERT.1, format P1 (43 R136). -/
def execInsert1 (_e : Bool) (s : State) : Host.Outcome State Fault Refusal := insertCopy 1 s

/-- INSERT.2, format P2 (43 R137). -/
def execInsert2 (_e : Bool) (s : State) : Host.Outcome State Fault Refusal := insertCopy 2 s

/-- INSERT.4, format P4 (43 R138). -/
def execInsert4 (_e : Bool) (s : State) : Host.Outcome State Fault Refusal := insertCopy 4 s

/-- INSERT.8, format P8 (43 R139). -/
def execInsert8 (_e : Bool) (s : State) : Host.Outcome State Fault Refusal := insertCopy 8 s

/-- The rest of EOL (43 R140): turn to replay. -/
def turnToReplay (s : State) : State :=
  { s with
    acc := 0#8, slot := 0#3, col := 0#16, bidx := 0#32, vrep := 0#16, phase := .replay, accTaint := false }

/-- EOL (43 R140); the selector's DEPTH field is not looked at. -/
def execEol (_d : BitVec 4) (s : State) : Host.Outcome State Fault Refusal :=
  if s.phase = .pack ∧ s.pixv = false ∧ s.col = s.srcW then
    if s.planValid = false then .refused .busyWithoutPlan
    else if s.slot = 0#3 then .next (turnToReplay s)
    else if s.bidx.toNat < s.lbBytes then .next (turnToReplay (storeByte s.accTaint s.acc s))
    else .fault .lineBufferIndex
  else .next s

/-- `OutPush(b)` (20 R45). -/
def pushByte (b : Byte) (s : State) : State :=
  { s with out := s.out ++ [b], emitted := s.emitted ++ [b] }

/-- EMIT after its `OutPush` (43 R141): on to the next byte, copy, scanline, or the end of the frame. -/
def afterEmit (s : State) : State :=
  if s.bidx.toNat + 1 < s.bps.toNat then { s with bidx := s.bidx + 1 }
  else if s.vrep.toNat + 1 < s.scale.toNat then { s with bidx := 0#32, vrep := s.vrep + 1 }
  else if s.row.toNat + 1 < s.srcH.toNat then
    { s with bidx := 0#32, vrep := 0#16, row := s.row + 1, phase := .pack }
  else { s with bidx := 0#32, vrep := 0#16, row := 0#16, phase := .idle, done := true }

/-- EMIT (43 R141), enabled when the sink is ready; the selector's other fields are not looked at. -/
def execEmit (_p _e : Bool) (_d : BitVec 4) (s : State) : Host.Outcome State Fault Refusal :=
  if s.phase = .replay ∧ s.sinkReady = true then
    if s.planValid = false then .refused .busyWithoutPlan
    else if s.bps.toNat ≤ s.bidx.toNat then .refused .bidxPastLine
    else if s.bidx.toNat < s.lbBytes then .next (afterEmit (pushByte (lbRead s.lb s.bidx.toNat) s))
    else .fault .lineBufferIndex
  else .next s

end Sys2Proof.Machine
end

