-- ==== Sys2Proof/Machine/Dispatch.lean ====
section
/-! DEFINITION. One arm per operation of spec/opcode_table.json. -/

namespace Sys2Proof.Machine

def exec (i : Instr) (s : State) : Host.Outcome State Fault Refusal :=
  match i with
  -- the register port (40 R81, R82)
  | .regrd idx data => Sys2Proof.Machine.execRegrd idx data s
  | .regwr idx data => Sys2Proof.Machine.execRegwr idx data s
  -- the commands (43 R127 to R130, 41 R99)
  | .nop => Sys2Proof.Machine.execNop s
  | .plan => Sys2Proof.Machine.execPlan s
  | .rast => Sys2Proof.Machine.execRast s
  | .render => Sys2Proof.Machine.execRender s
  | .abort => Sys2Proof.Machine.execAbort s
  -- the streams (40 R86, R87)
  | .pixpush pixel => Sys2Proof.Machine.execPixpush pixel s
  | .bytepop bus => Sys2Proof.Machine.execBytepop bus s
  -- the micro-steps (43 R134 to R141)
  | .fetch d => Sys2Proof.Machine.execFetch d s
  | .insert1 e => Sys2Proof.Machine.execInsert1 e s
  | .insert2 e => Sys2Proof.Machine.execInsert2 e s
  | .insert4 e => Sys2Proof.Machine.execInsert4 e s
  | .insert8 e => Sys2Proof.Machine.execInsert8 e s
  | .eol d => Sys2Proof.Machine.execEol d s
  | .emit p e d => Sys2Proof.Machine.execEmit p e d s

end Sys2Proof.Machine
end

