-- ==== Sys2Proof/Machine/Turn.lean ====
section
/-! DEFINITION. Whose turn it is (spec/20_memory.md R48), and how a word is laid where the next turn fetches it. -/

namespace Sys2Proof.Machine

/-- A word is decoded and run. An idle sequencer selects no micro-step and its turn passes (43 R132); a selector that
names none while busy is refused (93 U7). -/
def runWord (w : PortWord) (s : State) : Host.Outcome State Fault Refusal :=
  match decode w with
  | .ok i => exec i s
  | .error .seqIdle => .next s
  | .error _ => .refused .noMicroStep

/-- The block's turn: the selector of the state is what the sequencer decodes (30 R75, 43 R133). -/
def blockTurn (s : State) : Host.Outcome State Fault Refusal := runWord (.seq s.selector) s

/-- PIXDROP (40 R86). -/
def dropPixels (s : State) : State := { s with pixIn := [] }

/-- One event of the environment, already taken off the agenda. -/
def runEvent (e : Event) (s : State) : Host.Outcome State Fault Refusal :=
  match e with
  | .reg bundle => runWord (.reg bundle) s
  | .pix pixel => runWord (.pix pixel) s
  | .byte bus => runWord (.byte bus) s
  | .block sinkReady => blockTurn { s with sinkReady := sinkReady }
  | .reset => .next (hardReset s)
  | .pixdrop => .next (dropPixels s)

/-- One turn: the head of the agenda, or the block's where the agenda is empty (log entry 1). -/
def turn (s : State) : Host.Outcome State Fault Refusal :=
  match s.agenda with
  | [] => blockTurn s
  | e :: rest => runEvent e { s with agenda := rest }

/-- The event is put before the environment's others. -/
def schedule (e : Event) (s : State) : State := { s with agenda := e :: s.agenda }

/-- The sequencer brought to where its selector is `v` and the selected micro-step is enabled: `PHASE`, `PIXV`, `DEPTH`
and `COL` against `SRC_W` from the selector; `PLAN_VALID`, `SLOT`, `BIDX`, `BPS` and one pixel in `IN` only as far as the
step needs them (log entry 13). -/
def arrangeSelector (v : BitVec 8) (s : State) : State :=
  let inPack := decide (v.extractLsb' 6 2 = 1#2)
  let pixv := v.getLsbD 5
  let eolc := v.getLsbD 4
  let keepIdx := decide (s.bidx.toNat < s.lbBytes) && (inPack || decide (s.bidx.toNat < s.bps.toNat))
  { s with
    phase := if inPack then .pack else .replay
    pixv := pixv
    depth := v.extractLsb' 0 4
    planValid := true
    col := if eolc || decide (s.col.toNat < s.srcW.toNat) then s.col else 0#16
    srcW := if eolc then s.col else if s.col.toNat < s.srcW.toNat then s.srcW else 1#16
    slot := if s.slot.toNat < ppb (v.extractLsb' 0 4).toNat then s.slot else 0#3
    bidx := if keepIdx then s.bidx else 0#32
    bps := if inPack || decide (s.bps ≠ 0#32) then s.bps else 1#32
    pixIn := if inPack && !pixv && !eolc && s.pixIn.isEmpty then [0#8] else s.pixIn }

/-- `s` with a tagged word where the next turn fetches it. A word on the BYTE port is the head of `OUT` (40 R87), so an
empty `OUT` gets it (log entry 13). -/
def placeWord (w : PortWord) (s : State) : State :=
  match w with
  | .reg bundle => schedule (.reg bundle) s
  | .pix pixel => schedule (.pix pixel) s
  | .byte bus => schedule (.byte bus) (if s.out.isEmpty then { s with out := [bus] } else s)
  | .seq v => schedule (.block true) (arrangeSelector v s)

end Sys2Proof.Machine
end

