-- ==== Sys2Proof/Machine/Step.lean ====
section
/-! DEFINITION. One step of the machine, and the placing of a word as its next operation. -/

namespace Sys2Proof.Machine

/-- One atomic step of the system (20 R48). -/
def step (s : State) : Host.Outcome State Fault Refusal := turn s

/-- `s` with the word of the opcode table where `step` fetches its next operation; a word on no port changes nothing. -/
def State.withFetchWord (s : State) (nbits w : Nat) : State :=
  match tablePort nbits w with
  | some p => placeWord p s
  | none => s

end Sys2Proof.Machine
end

