-- ==== Sys2Proof/Machine/Companion.lean ====
section
/-! DEFINITION. The companion functions outside the block (spec/44_palette_serialization.md): what host software makes of
the palette. PXP does none of this (92 D28); no step calls it (log entry 20). -/

namespace Sys2Proof.Machine

/-- A colour: the tag decides, not the alpha value (44 R155). -/
inductive Color where
  | rgb (r g b : Byte)
  | rgba (r g b a : Byte)
  deriving DecidableEq, Repr

/-- The three channels that go into the palette chunk (44 R157). -/
def Color.triple : Color → List Byte
  | .rgb r g b => [r, g, b]
  | .rgba r g b _ => [r, g, b]

/-- Whether a colour carries alpha (44 R155). -/
def Color.hasAlpha : Color → Bool
  | .rgb _ _ _ => false
  | .rgba _ _ _ _ => true

/-- A colour's entry in the transparency table: 255 for RGB, the alpha for RGBA (44 R159). -/
def Color.alpha : Color → Byte
  | .rgb _ _ _ => 255#8
  | .rgba _ _ _ a => a

/-- A palette's length is 2 to 256 (44 R156). -/
def paletteLegal (pal : List Color) : Bool := decide (2 ≤ pal.length) && decide (pal.length ≤ 256)

/-- `PAL_LEN = len(palette)`, the host's duty toward PXP (44 R156). -/
def paletteWord (pal : List Color) : Word := BitVec.ofNat 32 pal.length

/-- Palette chunk payload (44 R157). -/
def plte (pal : List Color) : List Byte := pal.flatMap Color.triple

/-- Transparency table: present only if some entry is RGBA (44 R158), then one byte per entry (44 R159). -/
def trns (pal : List Color) : Option (List Byte) :=
  if pal.any Color.hasAlpha then some (pal.map Color.alpha) else none

/-- One entry of the source's lazy construction (44 R160): the table is allocated at the first RGBA entry, at full length
`n` and all 255; an RGBA entry stores its alpha at its index; an RGB entry stores nothing. -/
def trnsVisit (n : Nat) (table : Option (List Byte)) (entry : Color × Nat) : Option (List Byte) :=
  match entry.1 with
  | .rgb _ _ _ => table
  | .rgba _ _ _ a => some ((table.getD (List.replicate n 255#8)).set entry.2 a)

/-- The lazy construction run over the whole palette in order (44 R160). -/
def trnsLazy (pal : List Color) : Option (List Byte) :=
  pal.zipIdx.foldl (trnsVisit pal.length) none

/-- What is handed to the PNG writer (44 R161). -/
structure PngHeader where
  width : Word
  height : Word
  bitDepth : BitVec 4
  /-- Colour type "indexed"; the number 3 is from general knowledge (93 G1). -/
  colorType : Nat
  deriving DecidableEq, Repr

/-- The header parameters, read from the plan registers (44 R161). -/
def pngHeader (s : State) : PngHeader where
  width := s.outW
  height := s.outH
  bitDepth := s.depth
  colorType := 3

end Sys2Proof.Machine
end

