-- ==== Sys2Proof/Machine/Raster.lean ====
section
/-! DEFINITION. The rasterizer as a function (spec/42_rasterizer_function.md): the bytes a frame must be. No step calls
it; the sequencer's steps are held against it (43 R142). -/

namespace Sys2Proof.Machine

/-- Source scanline `r` (42 R106). -/
def sourceRow (px : List Byte) (w r : Nat) : List Byte := (px.drop (r * w)).take w

/-- The expanded scanline: each pixel `s` times in a row (42 R107). -/
def expandRow (s : Nat) (row : List Byte) : List Byte := row.flatMap fun p => List.replicate s p

/-- Slot `i` of byte `j`: expanded pixel `j*ppb + i` shifted into place, or 0 where the scanline has ended (42 R110). -/
def slotTerm (d : Nat) (ex : List Byte) (j i : Nat) : Nat :=
  match ex[j * ppb d + i]? with
  | some p => pixelField d p * 2 ^ slotShift d i
  | none => 0

/-- Byte `j` of the packed scanline, the sum of its slots (42 R110). -/
def lineByte (d : Nat) (ex : List Byte) (j : Nat) : Byte :=
  BitVec.ofNat 8 ((List.range (ppb d)).map (slotTerm d ex j)).sum

/-- The packed scanline of `n` bytes (42 R110). -/
def packLine (d n : Nat) (ex : List Byte) : List Byte := (List.range n).map (lineByte d ex)

/-- `rep(l, n)` (00 section 5). -/
def repeatSeq (n : Nat) (l : List Byte) : List Byte := (List.replicate n l).flatten

/-- `line_r`, the packed scanline of source scanline `r` (42 R110). -/
def frameLine (px : List Byte) (w s d r : Nat) : List Byte :=
  packLine d (bytesPerLine d (w * s)) (expandRow s (sourceRow px w r))

/-- `frame(px, w, h, s, d)` (42 R113). The spec defines it for `len(px) = w * h` and the planner's `d` only (42 R105, 91
N17). DESIGN CHOICE (log entry 24): this function is total; where pixels are missing their slots pack as 0, as in the
`else 0` branch of 42 R110, and pixels beyond the first `w * h` are ignored. -/
def frame (px : List Byte) (w h s d : Nat) : List Byte :=
  (List.range h).flatMap fun r => repeatSeq s (frameLine px w s d r)

/-- The index of output pixel `(x, y)` read back from a frame (42 R115). -/
def unpackPixel (fr : List Byte) (d bps x y : Nat) : Nat :=
  ((fr[y * bps + x / ppb d]?).getD 0#8).toNat / 2 ^ slotShift d (x % ppb d) % 2 ^ d

/-- How many micro-steps a frame takes (43 R143). -/
def frameSteps (w h s d : Nat) : Nat := h * (w + w * s + 1 + bytesPerLine d (w * s) * s)

end Sys2Proof.Machine
end

