-- ==== Sys2Proof/Safety.lean ====
section
/-! DEFINITION. What claims about PXP are stated in: the invariants of spec/10_state.md R22, R26 and R28, the operation a
turn runs, the host's duties (70 R197), and the groups of fields an operation may leave unchanged. -/

namespace Sys2Proof.Machine

/-! ### Outcomes -/

/-- The next state of an outcome, if it has one. -/
def nextState? : Host.Outcome State Fault Refusal → Option State
  | .next t => some t
  | .fault _ => none
  | .refused _ => none

/-! ### The operation of a turn -/

/-- The tagged word the next turn decodes: the host's, or the sequencer's selector; none for reset and PIXDROP. -/
def turnWord (s : State) : Option PortWord :=
  match s.agenda with
  | [] => some (.seq s.selector)
  | .reg b :: _ => some (.reg b)
  | .pix p :: _ => some (.pix p)
  | .byte b :: _ => some (.byte b)
  | .block _ :: _ => some (.seq s.selector)
  | .reset :: _ => none
  | .pixdrop :: _ => none

/-- The operation the next turn runs, if it runs one. -/
def turnInstr (s : State) : Option Instr :=
  match turnWord s with
  | none => none
  | some w =>
    match decode w with
    | .ok i => some i
    | .error _ => none

/-- Whether the next turn is a reset. -/
def turnIsReset (s : State) : Prop := s.agenda.head? = some .reset

/-- What a turn does around the operation it runs: the event is taken off the agenda, and a block turn brings the sink's
answer. -/
def afterFetch (s : State) : State :=
  match s.agenda with
  | [] => s
  | .block ready :: rest => { s with agenda := rest, sinkReady := ready }
  | _ :: rest => { s with agenda := rest }

/-- The block's own operations (43 R132). -/
def isMicroStep : Instr → Bool
  | .fetch _ | .insert1 _ | .insert2 _ | .insert4 _ | .insert8 _ | .eol _ | .emit _ _ _ => true
  | .regrd _ _ | .regwr _ _ | .nop | .plan | .rast | .render | .abort | .pixpush _ | .bytepop _ => false

/-! ### Groups of fields -/

/-- The instance's parameters are the same. -/
abbrev SameParams (s t : State) : Prop := t.lbBytes = s.lbBytes ∧ t.oorMode = s.oorMode

/-- The configuration registers are the same. -/
abbrev SameConfig (s t : State) : Prop :=
  t.palLen = s.palLen ∧ t.srcW = s.srcW ∧ t.srcH = s.srcH ∧ t.scale = s.scale

/-- The plan registers and `PLAN_VALID` are the same. -/
abbrev SamePlan (s t : State) : Prop :=
  t.depth = s.depth ∧ t.outW = s.outW ∧ t.outH = s.outH ∧ t.bps = s.bps ∧ t.planValid = s.planValid

/-- The stored flags are the same. -/
abbrev SameFlags (s t : State) : Prop := t.done = s.done ∧ t.ovr = s.ovr ∧ t.err = s.err

/-- The sequencer's variables are the same. -/
abbrev SameSequencer (s t : State) : Prop :=
  t.phase = s.phase ∧ t.row = s.row ∧ t.col = s.col ∧ t.hrep = s.hrep ∧ t.vrep = s.vrep ∧ t.slot = s.slot
    ∧ t.bidx = s.bidx ∧ t.acc = s.acc ∧ t.pixreg = s.pixreg ∧ t.pixv = s.pixv ∧ t.accTaint = s.accTaint

/-- Every byte of the line buffer is the same. -/
abbrev SameLineBuffer (s t : State) : Prop := ∀ a, memGet t.lb a = memGet s.lb a

/-- Every byte of the line buffer but the one at `j` is the same. -/
abbrev SameLineBufferExcept (j : Nat) (s t : State) : Prop := ∀ a, a ≠ j → memGet t.lb a = memGet s.lb a

/-- Both streams are the same. -/
abbrev SameStreams (s t : State) : Prop := t.pixIn = s.pixIn ∧ t.out = s.out

/-- The environment's choices are the same. -/
abbrev SameEnvironment (s t : State) : Prop := t.sinkReady = s.sinkReady ∧ t.agenda = s.agenda

/-- The host's records are the same. -/
abbrev SameHostView (s t : State) : Prop := t.replies = s.replies ∧ t.received = s.received

/-- The record of the frame run is the same. -/
abbrev SameRun (s t : State) : Prop := t.taken = s.taken ∧ t.emitted = s.emitted

/-- Nothing outside the block's registers, flags and sequencer has changed. -/
abbrev SameOutside (s t : State) : Prop :=
  SameParams s t ∧ SameLineBuffer s t ∧ SameStreams s t ∧ SameEnvironment s t ∧ SameHostView s t ∧ t.draws = s.draws

/-- Every sequencer variable is 0, `PHASE = IDLE` (10 R25, R33). -/
abbrev SequencerZero (s : State) : Prop :=
  s.phase = .idle ∧ s.row = 0#16 ∧ s.col = 0#16 ∧ s.hrep = 0#16 ∧ s.vrep = 0#16 ∧ s.slot = 0#3 ∧ s.bidx = 0#32
    ∧ s.acc = 0#8 ∧ s.pixreg = 0#8 ∧ s.pixv = false

/-- The plan registers and `PLAN_VALID` are 0. -/
abbrev PlanDropped (s : State) : Prop :=
  s.planValid = false ∧ s.depth = 0#4 ∧ s.outW = 0#32 ∧ s.outH = 0#32 ∧ s.bps = 0#32

/-- What PLAN, RAST, RENDER, ABORT and the errors leave alone beside the flags, plan and sequencer they name. -/
abbrev SameBesidesCommand (s t : State) : Prop := SameConfig s t ∧ SameOutside s t

/-- A frame starts (43 R128, last branch): PACK with the eight variables 0 and `PIXREG` kept. -/
abbrev FrameStarted (s t : State) : Prop :=
  t.phase = .pack ∧ t.row = 0#16 ∧ t.col = 0#16 ∧ t.hrep = 0#16 ∧ t.vrep = 0#16 ∧ t.slot = 0#3 ∧ t.bidx = 0#32
    ∧ t.acc = 0#8 ∧ t.pixv = false ∧ t.pixreg = s.pixreg

/-- Only `OVR` (and the model's history flag) is set: a dropped write (60 R175). -/
abbrev OnlyOvrSet (s t : State) : Prop := t = { s with ovr := true, faultSeen := true }

/-- What every micro-step leaves alone: configuration, plan, `OVR`, `ERR`, parameters, the environment's side. -/
abbrev SameBesidesMicroStep (s t : State) : Prop :=
  SameConfig s t ∧ SamePlan s t ∧ t.ovr = s.ovr ∧ t.err = s.err ∧ SameParams s t ∧ SameEnvironment s t
    ∧ SameHostView s t ∧ t.faultSeen = s.faultSeen

/-- INSERT's effect (43 R135), `full` saying whether the byte is full: `stored` is what a full byte leaves in the line
buffer, `kept` what an unfinished one leaves in `ACC`. -/
abbrev InsertResult (stored kept : Byte) (full : Prop) (s t : State) : Prop :=
  (full → memGet t.lb s.bidx.toNat = some stored ∧ SameLineBufferExcept s.bidx.toNat s t
      ∧ t.bidx = s.bidx + 1 ∧ t.acc = 0#8 ∧ t.slot = 0#3)
    ∧ (¬ full → SameLineBuffer s t ∧ t.bidx = s.bidx ∧ t.acc = kept ∧ t.slot = s.slot + 1)
    ∧ (s.hrep.toNat + 1 = s.scale.toNat → t.pixv = false ∧ t.hrep = 0#16 ∧ t.col = s.col + 1)
    ∧ (s.hrep.toNat + 1 ≠ s.scale.toNat → t.pixv = true ∧ t.hrep = s.hrep + 1 ∧ t.col = s.col)
    ∧ t.phase = s.phase ∧ t.row = s.row ∧ t.vrep = s.vrep ∧ t.pixreg = s.pixreg
    ∧ t.done = s.done ∧ SameStreams s t ∧ SameRun s t ∧ SameBesidesMicroStep s t

/-- `i` is the INSERT of depth `d` (43 R136 to R139). -/
abbrev IsInsert (d : Nat) (i : Instr) : Prop :=
  (d = 1 ∧ ∃ e, i = .insert1 e) ∨ (d = 2 ∧ ∃ e, i = .insert2 e) ∨ (d = 4 ∧ ∃ e, i = .insert4 e)
    ∨ (d = 8 ∧ ∃ e, i = .insert8 e)

/-- No free byte is drawn and none is owed (93 U1). -/
abbrev NothingDrawn (s t : State) : Prop := t.draws = s.draws ∧ t.accTaint = false

/-- Where an INSERT at depth `d` is selected and means something: PACK, `PIXV = 1`, `DEPTH = d`, a plan, a slot of the
byte, and room for the byte if it fills (30 R75, 93 U7). -/
abbrev InsertReady (d : Nat) (s : State) : Prop :=
  s.phase = .pack ∧ s.pixv = true ∧ s.depth = BitVec.ofNat 4 d ∧ s.planValid = true ∧ s.slot.toNat < ppb d
    ∧ (s.slot.toNat + 1 = ppb d → s.bidx.toNat < s.lbBytes)

/-- The byte being assembled is a determined one: truncation, or no offending pixel in it (93 U1). -/
abbrev ByteDetermined (s : State) : Prop :=
  s.accTaint = false ∧ (s.oorMode = .truncate ∨ s.pixreg.toNat < s.palLen.toNat)

/-- A depth PXP has (00 R5). -/
abbrev IsDepth (d : Nat) : Prop := d = 1 ∨ d = 2 ∨ d = 4 ∨ d = 8

/-! ### Host duties (70 R197) -/

/-- Duty H2: every pixel is an index into the palette. -/
abbrev PixelsInPalette (palLen : Nat) (px : List Byte) : Prop := ∀ p ∈ px, p.toNat < palLen

/-- Where the packed bytes are determined: PXP's own truncation, or duty H2 kept so far in this frame (93 U1). -/
abbrev Determined (s : State) : Prop := s.oorMode = .truncate ∨ PixelsInPalette s.palLen.toNat s.taken

/-! ### The plan invariant (10 R22) -/

/-- The plan registers hold the plan of the configuration (10 R22, first half). -/
abbrev PlanHolds (s : State) : Prop :=
  Config.palMin ≤ s.palLen.toNat ∧ s.palLen.toNat ≤ Config.palMax ∧ 1 ≤ s.srcW.toNat ∧ 1 ≤ s.scale.toNat
    ∧ s.depth.toNat = depthOf s.palLen.toNat
    ∧ s.outW.toNat = s.srcW.toNat * s.scale.toNat
    ∧ s.outH.toNat = s.srcH.toNat * s.scale.toNat
    ∧ s.bps.toNat = bytesPerLine s.depth.toNat s.outW.toNat
    ∧ 1 ≤ s.bps.toNat ∧ s.bps.toNat ≤ s.lbBytes

/-- The plan registers are 0 (10 R22, second half). -/
abbrev PlanCleared (s : State) : Prop := s.depth = 0#4 ∧ s.outW = 0#32 ∧ s.outH = 0#32 ∧ s.bps = 0#32

/-- The plan invariant (10 R22). -/
abbrev PlanInv (s : State) : Prop :=
  (s.planValid = true → PlanHolds s) ∧ (s.planValid = false → PlanCleared s)

/-! ### The sequencer's invariant (10 R26, R28) -/

/-- The line buffer is in canonical form and lists no index that does not exist. -/
abbrev LineBufferInv (s : State) : Prop := Memory.wf s.lb = true ∧ memBelow s.lbBytes s.lb = true

/-- The record of errors covers what the flags show (60 R182). -/
abbrev HistoryInv (s : State) : Prop := (s.err ≠ .noError → s.faultSeen = true) ∧ (s.ovr = true → s.faultSeen = true)

/-- Expanded pixels of the current scanline already inserted, in order: `COL` whole pixels and `HREP` copies of
`PIXREG` (10 R28 (b)). -/
def insertedPixels (s : State) : List Byte :=
  expandRow s.scale.toNat ((s.taken.drop (s.row.toNat * s.srcW.toNat)).take s.col.toNat)
    ++ List.replicate s.hrep.toNat s.pixreg

/-- `k = COL * SCALE + HREP` (10 R28 (b)). -/
def insertedCount (s : State) : Nat := s.col.toNat * s.scale.toNat + s.hrep.toNat

/-- The scanlines before `ROW`, as the frame has them: `taken` may hold more than their `ROW * SRC_W` pixels, and `frame`
reads those only (log entry 24, law `frame_take`). -/
def earlierScanlines (s : State) : List Byte :=
  frame s.taken s.srcW.toNat s.row.toNat s.scale.toNat s.depth.toNat

/-- The packed scanline `ROW`, once all its pixels are in. -/
def currentLine (s : State) : List Byte :=
  frameLine s.taken s.srcW.toNat s.scale.toNat s.depth.toNat s.row.toNat

/-- IDLE: every sequencer variable but `PIXREG` is 0 (10 R26); after a complete frame the run's record is the frame's. -/
abbrev IdleInv (s : State) : Prop :=
  s.row = 0#16 ∧ s.col = 0#16 ∧ s.hrep = 0#16 ∧ s.vrep = 0#16 ∧ s.slot = 0#3 ∧ s.bidx = 0#32 ∧ s.acc = 0#8
    ∧ s.pixv = false ∧ s.accTaint = false
    ∧ (s.done = true → s.planValid = true →
        s.taken.length = s.srcW.toNat * s.srcH.toNat ∧ s.emitted.length = s.bps.toNat * s.outH.toNat
        ∧ (Determined s →
            s.emitted = frame s.taken s.srcW.toNat s.srcH.toNat s.scale.toNat s.depth.toNat))

/-- PACK (10 R28 (a), (b), (d), (e)). -/
abbrev PackInv (s : State) : Prop :=
  s.planValid = true ∧ s.row.toNat < s.srcH.toNat ∧ s.vrep = 0#16 ∧ s.col.toNat ≤ s.srcW.toNat
    ∧ (s.pixv = true → s.col.toNat < s.srcW.toNat ∧ s.hrep.toNat < s.scale.toNat ∧ s.taken.getLast? = some s.pixreg)
    ∧ (s.pixv = false → s.hrep = 0#16)
    ∧ s.bidx.toNat = insertedCount s / ppb s.depth.toNat
    ∧ s.slot.toNat = insertedCount s % ppb s.depth.toNat
    ∧ s.acc = lineByte s.depth.toNat (insertedPixels s) s.bidx.toNat
    ∧ (∀ j < s.bidx.toNat, memGet s.lb j ≠ none)
    ∧ s.taken.length = s.row.toNat * s.srcW.toNat + s.col.toNat + (if s.pixv then 1 else 0)
    ∧ s.emitted.length = s.row.toNat * s.scale.toNat * s.bps.toNat
    ∧ (s.accTaint = true → s.oorMode = .anyValue)
    ∧ (Determined s →
        s.accTaint = false
        ∧ (∀ j < s.bidx.toNat, memGet s.lb j = some (lineByte s.depth.toNat (insertedPixels s) j))
        ∧ s.emitted = earlierScanlines s)

/-- REPLAY (10 R28 (a), (c), (d), (e)). -/
abbrev ReplayInv (s : State) : Prop :=
  s.planValid = true ∧ s.row.toNat < s.srcH.toNat ∧ s.vrep.toNat < s.scale.toNat ∧ s.bidx.toNat < s.bps.toNat
    ∧ s.col = 0#16 ∧ s.hrep = 0#16 ∧ s.slot = 0#3 ∧ s.acc = 0#8 ∧ s.pixv = false ∧ s.accTaint = false
    ∧ (∀ j < s.bps.toNat, memGet s.lb j ≠ none)
    ∧ s.taken.length = (s.row.toNat + 1) * s.srcW.toNat
    ∧ s.emitted.length =
        s.row.toNat * s.scale.toNat * s.bps.toNat + s.vrep.toNat * s.bps.toNat + s.bidx.toNat
    ∧ (Determined s →
        (∀ j < s.bps.toNat, memGet s.lb j = (currentLine s)[j]?)
        ∧ s.emitted = earlierScanlines s ++ repeatSeq s.vrep.toNat (currentLine s)
            ++ (currentLine s).take s.bidx.toNat)

/-- The invariant of the phase the sequencer is in. -/
abbrev SequencerInv (s : State) : Prop :=
  (s.phase = .idle → IdleInv s) ∧ (s.phase = .pack → PackInv s) ∧ (s.phase = .replay → ReplayInv s)

/-- The whole invariant. -/
abbrev Inv (s : State) : Prop :=
  1 ≤ s.lbBytes ∧ PlanInv s ∧ LineBufferInv s ∧ HistoryInv s ∧ SequencerInv s

end Sys2Proof.Machine
end

