-- ==== Sys2Proof/Certificates/Slice0/Obligations.lean ====
section
/-! DEFINITION. The statements for the provers, each from numbered rules of spec/. -/

open Sys2Proof Sys2Proof.Machine

/-! ### Reset -/

/-- 70 R192, 10 R33: right after reset every index reads 0, every sequencer variable is 0, no step is selected, and the
launch state has `IN`, `OUT` empty and no error history. -/
def Obligations.LaunchStateReadsZero : Prop :=
  (∀ idx, regRead idx State.reset = 0#32) ∧ SequencerZero State.reset
    ∧ decode (.seq State.reset.selector) = .error .seqIdle
    ∧ State.reset.pixIn = [] ∧ State.reset.out = [] ∧ State.reset.faultSeen = false

/-- 70 R190: a reset turn, in any state. -/
def Obligations.ResetClearsRegistersOnly : Prop :=
  ∀ (s : State) (rest : List Event), s.agenda = .reset :: rest →
    ∃ t, step s = .next t ∧ t.agenda = rest ∧ (∀ idx, regRead idx t = 0#32) ∧ SequencerZero t
      ∧ decode (.seq t.selector) = .error .seqIdle ∧ SameLineBuffer s t ∧ SameStreams s t ∧ SameParams s t
      ∧ SameHostView s t

/-- 70 R191: reset is ABORT that also clears the configuration, the plan and `PLAN_VALID`; both keep `IN`, `OUT`, `LB`. -/
def Obligations.ResetIsAbortAndCleared : Prop :=
  ∀ (s : State) (rest : List Event), s.agenda = .reset :: rest →
    ∃ t u, step s = .next t ∧ exec .abort { s with agenda := rest } = .next u
      ∧ t = { u with
          palLen := 0#16, srcW := 0#16, srcH := 0#16, scale := 0#16, depth := 0#4, outW := 0#32, outH := 0#32,
          bps := 0#32, planValid := false }
      ∧ SequencerZero u ∧ SameConfig s u ∧ SamePlan s u
      ∧ u.done = false ∧ u.ovr = false ∧ u.err = .noError
      ∧ t.out = s.out ∧ t.pixIn = s.pixIn ∧ t.lb = s.lb

/-! ### The step -/

/-- 20 R48, 30 R75: a turn whose word decodes to an operation is that operation's execution, after the event has left the
agenda (and, for a block turn, brought the sink's answer). -/
def Obligations.StepRunsTheDecodedOperation : Prop :=
  ∀ (s : State) (w : PortWord) (i : Instr), turnWord s = some w → decode w = .ok i →
    step s = exec i (afterFetch s)

/-- 43 R132: the block takes a step only while `PHASE != IDLE`; an idle block's turn changes nothing but the agenda and the
sink's answer. -/
def Obligations.IdleBlockTakesNoStep : Prop :=
  ∀ (s : State), s.phase = .idle → (s.agenda = [] ∨ ∃ r rest, s.agenda = .block r :: rest) →
    step s = .next (afterFetch s)

/-- 43 R133, 30 R75: in every busy state that meets the invariant exactly one micro-step is selected, and the selector
decodes to it. -/
def Obligations.SelectorNamesTheSelectedStep : Prop :=
  ∀ (s : State), Inv s → s.phase ≠ .idle →
    (s.phase = .pack ∧ s.pixv = false ∧ s.col.toNat < s.srcW.toNat ∧ decode (.seq s.selector) = .ok (.fetch s.depth))
    ∨ (s.phase = .pack ∧ s.pixv = true
        ∧ ((s.depth = 1#4 ∧ decode (.seq s.selector) = .ok (.insert1 false))
          ∨ (s.depth = 2#4 ∧ decode (.seq s.selector) = .ok (.insert2 false))
          ∨ (s.depth = 4#4 ∧ decode (.seq s.selector) = .ok (.insert4 false))
          ∨ (s.depth = 8#4 ∧ decode (.seq s.selector) = .ok (.insert8 false))))
    ∨ (s.phase = .pack ∧ s.pixv = false ∧ s.col = s.srcW ∧ decode (.seq s.selector) = .ok (.eol s.depth))
    ∨ (s.phase = .replay ∧ decode (.seq s.selector) = .ok (.emit false false s.depth))

/-! ### Encodings -/

/-- Decode and encode agree on every well-formed operation, with every operand at every value (30 R60 to R75). -/
def Obligations.DecodeOfEncodeIsTheOperation : Prop :=
  ∀ i : Instr, i.WellFormed → decode (encode i) = .ok i

/-- The other direction: a word that decodes is the encoding of what it decodes to, and that is well-formed. -/
def Obligations.EncodeOfDecodeIsTheWord : Prop :=
  ∀ (w : PortWord) (i : Instr), decode w = .ok i → encode i = w ∧ i.WellFormed

/-- Words written out from the spec (95 section 2.1 and section 6). -/
def Obligations.PrintedWordsDecode : Prop :=
  decode (.reg 0x0100000000#37) = .ok (.regrd 1#4 0#32)
    ∧ decode (.reg 0x01DEADBEEF#37) = .ok (.regrd 1#4 0xDEADBEEF#32)
    ∧ decode (.reg 0x130000002D#37) = .ok (.regwr 3#4 45#32)
    ∧ decode (.reg 0x1000000101#37) = .ok (.regwr 0#4 0x101#32)
    ∧ decode (.reg 0x1000000003#37) = .ok .render
    ∧ decode (.pix 0x0A#8) = .ok (.pixpush 10#8)
    ∧ decode (.seq 0b01000010#8) = .ok (.fetch 2#4)
    ∧ decode (.seq 0b01100100#8) = .ok (.insert4 false)
    ∧ decode (.seq 0b10001000#8) = .ok (.emit false false 8#4)

/-- 30 R63: every command word from 5 up is reserved, not an alias: `BadCmd` while idle, which changes nothing else, and
dropped with `OVR` while busy. -/
def Obligations.ReservedCommandWords : Prop :=
  ∀ (s : State) (c : Word), 5 ≤ c.toNat →
    decodeCmd c = .error .reservedCommand
    ∧ decode (.reg (regBundle true 0#4 c)) = .ok (.regwr 0#4 c)
    ∧ (s.busy = false → exec (.regwr 0#4 c) s = .next { s with err := .badCmd, faultSeen := true })
    ∧ (s.busy = true → exec (.regwr 0#4 c) s = .next { s with ovr := true, faultSeen := true })

/-! ### The register port -/

/-- 10 R12: the bits of the `STATUS` word, as a number. -/
def Obligations.StatusWordBits : Prop :=
  ∀ s : State,
    s.statusWord.toNat = (if s.phase = .idle then 0 else 1) + (if s.planValid then 2 else 0)
      + (if s.done then 4 else 0) + (if s.ovr then 8 else 0) + 256 * s.err.code.toNat

/-- 40 R81: the reply of a REGRD, index by index; nothing else changes. -/
def Obligations.RegisterReadReplies : Prop :=
  ∀ (s : State) (idx : BitVec 4) (data : Word),
    ∃ v, exec (.regrd idx data) s = .next { s with replies := s.replies ++ [v] }
      ∧ encode (.regrd idx data) = .reg (regBundle false idx data)
      ∧ (idx = 0#4 → v = 0#32)
      ∧ (idx = 1#4 → v.toNat = (if s.phase = .idle then 0 else 1) + (if s.planValid then 2 else 0)
          + (if s.done then 4 else 0) + (if s.ovr then 8 else 0) + 256 * s.err.code.toNat)
      ∧ (idx = 2#4 → v.toNat = s.palLen.toNat) ∧ (idx = 3#4 → v.toNat = s.srcW.toNat)
      ∧ (idx = 4#4 → v.toNat = s.srcH.toNat) ∧ (idx = 5#4 → v.toNat = s.scale.toNat)
      ∧ (idx = 6#4 → v.toNat = s.depth.toNat) ∧ (idx = 7#4 → v = s.outW) ∧ (idx = 8#4 → v = s.outH)
      ∧ (idx = 9#4 → v = s.bps) ∧ (10 ≤ idx.toNat → v = 0#32)

/-- 40 R84: a configuration write is dropped with `OVR` while busy; while idle it stores `data[15:0]` and the plan goes. -/
def Obligations.ConfigurationWrite : Prop :=
  ∀ (s : State) (idx : BitVec 4) (data : Word), 2 ≤ idx.toNat → idx.toNat ≤ 5 →
    (s.busy = true → ∃ t, exec (.regwr idx data) s = .next t ∧ OnlyOvrSet s t)
    ∧ (s.busy = false → ∃ t, exec (.regwr idx data) s = .next t
        ∧ t.palLen.toNat = (if idx = 2#4 then data.toNat % 65536 else s.palLen.toNat)
        ∧ t.srcW.toNat = (if idx = 3#4 then data.toNat % 65536 else s.srcW.toNat)
        ∧ t.srcH.toNat = (if idx = 4#4 then data.toNat % 65536 else s.srcH.toNat)
        ∧ t.scale.toNat = (if idx = 5#4 then data.toNat % 65536 else s.scale.toNat)
        ∧ PlanDropped t ∧ SameFlags s t ∧ SameSequencer s t ∧ SameOutside s t ∧ SameRun s t
        ∧ t.faultSeen = s.faultSeen)

/-- 40 R85: a write to index 1, 6 to 9 or 10 to 15 is ignored in every phase. -/
def Obligations.OtherWritesAreIgnored : Prop :=
  ∀ (s : State) (idx : BitVec 4) (data : Word), idx = 1#4 ∨ 6 ≤ idx.toNat →
    exec (.regwr idx data) s = .next s

/-- 40 R83: a REGWR to `CMD` issues the command its word encodes. -/
def Obligations.RegisterZeroIssuesCommands : Prop :=
  ∀ (s : State) (c : Word) (i : Instr), decodeCmd c = .ok i → exec (.regwr 0#4 c) s = exec i s

/-- 60 R175, 40 R83, 70 R203: while busy PLAN, RAST, RENDER and reserved words are dropped; the only trace is `OVR`. -/
def Obligations.BusyDropsCommands : Prop :=
  ∀ (s : State), s.busy = true →
    (∃ t, exec .plan s = .next t ∧ OnlyOvrSet s t) ∧ (∃ t, exec .rast s = .next t ∧ OnlyOvrSet s t)
    ∧ (∃ t, exec .render s = .next t ∧ OnlyOvrSet s t)
    ∧ (∀ c : Word, 5 ≤ c.toNat → ∃ t, exec (.regwr 0#4 c) s = .next t ∧ OnlyOvrSet s t)

/-! ### The planner -/

/-- 41 R92: the depth table, as the smallest depth that can index the palette, monotonic. -/
def Obligations.DepthIsTheSmallest : Prop :=
  (∀ p, p ≤ 256 → IsDepth (depthOf p) ∧ p ≤ 2 ^ depthOf p ∧ ∀ d, IsDepth d → p ≤ 2 ^ d → depthOf p ≤ d)
    ∧ (∀ p q, p ≤ q → q ≤ 256 → depthOf p ≤ depthOf q)
    ∧ (∀ p, p ≤ 2 → depthOf p = 1 ∧ ppb (depthOf p) = 8 ∧ 2 ^ depthOf p - 1 = 1)
    ∧ (∀ p, 3 ≤ p → p ≤ 4 → depthOf p = 2 ∧ ppb (depthOf p) = 4 ∧ 2 ^ depthOf p - 1 = 3)
    ∧ (∀ p, 5 ≤ p → p ≤ 16 → depthOf p = 4 ∧ ppb (depthOf p) = 2 ∧ 2 ^ depthOf p - 1 = 15)
    ∧ (∀ p, 17 ≤ p → p ≤ 256 → depthOf p = 8 ∧ ppb (depthOf p) = 1 ∧ 2 ^ depthOf p - 1 = 255)

/-- 41 R99, R100, R101: PLAN, dropped while busy; accepted, test by test in the order of priority. -/
def Obligations.PlanCommand : Prop :=
  encode .plan = .reg 0x1000000001#37
  ∧ (∀ s : State, s.busy = true → ∃ t, exec .plan s = .next t ∧ OnlyOvrSet s t)
  ∧ ∀ s : State, s.busy = false →
    ∃ t, exec .plan s = .next t ∧ SameBesidesCommand s t ∧ SameSequencer s t ∧ SameRun s t
      ∧ t.done = false ∧ t.ovr = false
      ∧ (if 256 < s.palLen.toNat then t.err = .paletteTooBig ∧ PlanDropped t
        else if s.palLen.toNat < 2 then t.err = .paletteTooSmall ∧ PlanDropped t
        else if s.srcW = 0#16 ∨ s.scale = 0#16 then t.err = .zeroDim ∧ PlanDropped t
        else if s.lbBytes < (s.srcW.toNat * s.scale.toNat * depthOf s.palLen.toNat + 7) / 8 then
          t.err = .lineTooLong ∧ PlanDropped t
        else t.err = .noError ∧ t.planValid = true ∧ t.faultSeen = s.faultSeen
          ∧ t.depth.toNat = depthOf s.palLen.toNat
          ∧ t.outW.toNat = s.srcW.toNat * s.scale.toNat
          ∧ t.outH.toNat = s.srcH.toNat * s.scale.toNat
          ∧ t.bps.toNat = (s.srcW.toNat * s.scale.toNat * depthOf s.palLen.toNat + 7) / 8)

/-- 41 R104: properties of the registers in every state that meets the plan invariant with a valid plan. -/
def Obligations.PlanRegisterProperties : Prop :=
  (∀ s : State, PlanInv s → s.planValid = true →
    (s.palLen.toNat = 2 → s.depth = 1#4) ∧ (3 ≤ s.palLen.toNat → s.palLen.toNat ≤ 4 → s.depth = 2#4)
    ∧ (5 ≤ s.palLen.toNat → s.palLen.toNat ≤ 16 → s.depth = 4#4) ∧ (17 ≤ s.palLen.toNat → s.depth = 8#4)
    ∧ s.palLen.toNat ≤ 2 ^ s.depth.toNat
    ∧ s.outW.toNat * s.depth.toNat ≤ 8 * s.bps.toNat ∧ 8 * s.bps.toNat ≤ s.outW.toNat * s.depth.toNat + 7
    ∧ s.outW.toNat ≤ s.bps.toNat * ppb s.depth.toNat ∧ (s.bps.toNat - 1) * ppb s.depth.toNat < s.outW.toNat)
  ∧ (∀ p q, p ≤ q → q ≤ 256 → depthOf p ≤ depthOf q)

/-- 00 R7: with the default `LB_BYTES` every plan fits, so `LineTooLong` is never raised and the planner fails for the two
palette reasons and `ZeroDim` only. -/
def Obligations.DefaultLineBufferFitsEveryPlan : Prop :=
  (∀ p w h c, p < 65536 → w < 65536 → h < 65536 → c < 65536 →
      (p ≤ 256 → bytesPerLine (depthOf p) (w * c) ≤ 4294836225)
      ∧ planner 4294836225 p w h c ≠ .failure .lineTooLong
      ∧ ((∃ d ow oh n, planner 4294836225 p w h c = .plan d ow oh n ∧ n ≤ 4294836225)
        ∨ planner 4294836225 p w h c = .failure .paletteTooBig
        ∨ planner 4294836225 p w h c = .failure .paletteTooSmall
        ∨ planner 4294836225 p w h c = .failure .zeroDim))
    ∧ (∀ s t : State, s.lbBytes = 4294836225 → s.err ≠ .lineTooLong → step s = .next t →
        t.err ≠ .lineTooLong ∧ t.lbBytes = 4294836225)

/-! ### Commands -/

/-- 43 R127: NOP, in any phase. -/
def Obligations.NopWritesNothing : Prop :=
  encode .nop = .reg 0x1000000000#37 ∧ ∀ s : State, exec .nop s = .next s

/-- 43 R128: RAST, dropped while busy; an accepted one, and when a plan's frame is empty. -/
def Obligations.RastCommand : Prop :=
  encode .rast = .reg 0x1000000002#37
  ∧ (∀ s : State, s.busy = true → ∃ t, exec .rast s = .next t ∧ OnlyOvrSet s t)
  ∧ (∀ s : State, PlanInv s → s.planValid = true → (s.outH = 0#32 ↔ s.srcH = 0#16))
  ∧ ∀ s : State, s.busy = false →
    ∃ t, exec .rast s = .next t ∧ SameBesidesCommand s t ∧ SamePlan s t ∧ t.ovr = false
      ∧ (if s.planValid = false then
          t.err = .noPlan ∧ t.done = false ∧ SameSequencer s t ∧ SameRun s t
        else if s.outH = 0#32 then
          t.err = .noError ∧ t.done = true ∧ SameSequencer s t ∧ t.statusWord = 6#32
        else t.err = .noError ∧ t.done = false ∧ FrameStarted s t ∧ t.busy = true)

/-- 43 R129: RENDER, dropped while busy; an accepted one, written out. -/
def Obligations.RenderCommand : Prop :=
  encode .render = .reg 0x1000000003#37
  ∧ (∀ s : State, s.busy = true → ∃ t, exec .render s = .next t ∧ OnlyOvrSet s t)
  ∧ ∀ s : State, s.busy = false →
    ∃ t, exec .render s = .next t ∧ SameBesidesCommand s t ∧ t.ovr = false
      ∧ (if 256 < s.palLen.toNat then t.err = .paletteTooBig ∧ PlanDropped t ∧ t.done = false ∧ SameSequencer s t
        else if s.palLen.toNat < 2 then t.err = .paletteTooSmall ∧ PlanDropped t ∧ t.done = false ∧ SameSequencer s t
        else if s.srcW = 0#16 ∨ s.scale = 0#16 then
          t.err = .zeroDim ∧ PlanDropped t ∧ t.done = false ∧ SameSequencer s t
        else if s.lbBytes < (s.srcW.toNat * s.scale.toNat * depthOf s.palLen.toNat + 7) / 8 then
          t.err = .lineTooLong ∧ PlanDropped t ∧ t.done = false ∧ SameSequencer s t
        else t.err = .noError ∧ t.planValid = true
          ∧ t.depth.toNat = depthOf s.palLen.toNat
          ∧ t.outW.toNat = s.srcW.toNat * s.scale.toNat
          ∧ t.outH.toNat = s.srcH.toNat * s.scale.toNat
          ∧ t.bps.toNat = (s.srcW.toNat * s.scale.toNat * depthOf s.palLen.toNat + 7) / 8
          ∧ (if s.srcH = 0#16 then t.done = true ∧ SameSequencer s t else t.done = false ∧ FrameStarted s t))

/-- 43 R129: `CMD RENDER` is `CMD PLAN` then `CMD RAST`, except that after a failed plan the pair ends with `NoPlan`. -/
def Obligations.RenderIsPlanThenRast : Prop :=
  ∀ s : State, s.busy = false →
    ∃ t u v, exec .render s = .next t ∧ exec .plan s = .next u ∧ exec .rast u = .next v
      ∧ (u.err = .noError → t = v) ∧ (u.err ≠ .noError → t = u ∧ v.err = .noPlan)

/-- 43 R130: ABORT, in every phase. -/
def Obligations.AbortCommand : Prop :=
  encode .abort = .reg 0x1000000004#37
  ∧ ∀ s : State, ∃ t, exec .abort s = .next t ∧ SequencerZero t ∧ t.done = false ∧ t.ovr = false ∧ t.err = .noError
    ∧ t.busy = false ∧ SamePlan s t ∧ SameBesidesCommand s t ∧ SameRun s t ∧ t.faultSeen = s.faultSeen

/-- 43 R126, 10 R24: an accepted command inherits nothing of `DONE`, `OVR` and `ERR`. -/
def Obligations.AcceptedCommandsForgetTheFlags : Prop :=
  ∀ (s : State) (a b : Bool) (c : ErrCode),
    exec .abort { s with done := a, ovr := b, err := c } = exec .abort s
    ∧ (s.busy = false →
        exec .plan { s with done := a, ovr := b, err := c } = exec .plan s
        ∧ exec .rast { s with done := a, ovr := b, err := c } = exec .rast s
        ∧ exec .render { s with done := a, ovr := b, err := c } = exec .render s)

/-- 60 R173: error entry, code by code. -/
def Obligations.ErrorEntry : Prop :=
  ∀ (s : State) (code : ErrCode), code ≠ .noError →
    (raiseError code s).err = code
    ∧ (code.code.toNat ≤ 4 → PlanDropped (raiseError code s))
    ∧ (4 < code.code.toNat → SamePlan s (raiseError code s))
    ∧ (raiseError code s).done = s.done ∧ (raiseError code s).ovr = s.ovr
    ∧ SameSequencer s (raiseError code s) ∧ SameBesidesCommand s (raiseError code s) ∧ SameRun s (raiseError code s)

/-! ### The streams -/

/-- 40 R86: PIXPUSH appends; ABORT and reset leave `IN`; PIXDROP empties it and touches nothing else. -/
def Obligations.PixpushAppends : Prop :=
  (∀ (s : State) (p : Byte), encode (.pixpush p) = .pix p
      ∧ exec (.pixpush p) s = .next { s with pixIn := s.pixIn ++ [p] })
    ∧ (∀ (s : State) (rest : List Event), s.agenda = .pixdrop :: rest →
        step s = .next { s with agenda := rest, pixIn := [] })
    ∧ (∀ s : State, ∃ t, exec .abort s = .next t ∧ t.pixIn = s.pixIn)
    ∧ (∀ (s : State) (rest : List Event), s.agenda = .reset :: rest → ∃ t, step s = .next t ∧ t.pixIn = s.pixIn)

/-- 40 R87: BYTEPOP takes the head of `OUT`; with `OUT` empty it is not enabled and nothing changes. -/
def Obligations.BytepopTakesTheHead : Prop :=
  ∀ (s : State) (bus : Byte),
    (∀ b rest, s.out = b :: rest →
      exec (.bytepop bus) s = .next { s with out := rest, received := s.received ++ [b] })
    ∧ (s.out = [] → exec (.bytepop bus) s = .next s)

/-- 20 R44, R45, R50 (b): both streams are first in first out. A turn appends at most one byte to all the host has had or
will have, and only EMIT does; `IN` gains at its tail by PIXPUSH and loses its head by FETCH. -/
def Obligations.StreamsAreFirstInFirstOut : Prop :=
  ∀ s t : State, step s = .next t →
    (t.received ++ t.out = s.received ++ s.out
      ∨ ∃ b p e d, turnInstr s = some (.emit p e d) ∧ t.received ++ t.out = s.received ++ s.out ++ [b])
    ∧ (t.pixIn = s.pixIn
      ∨ (∃ p, turnInstr s = some (.pixpush p) ∧ t.pixIn = s.pixIn ++ [p])
      ∨ (∃ p d, turnInstr s = some (.fetch d) ∧ s.pixIn = p :: t.pixIn ∧ t.pixreg = p)
      ∨ (s.agenda.head? = some .pixdrop ∧ t.pixIn = []))

/-! ### Micro-steps -/

/-- 43 R134: FETCH, when selected: it takes the head of `IN`, or waits while `IN` is empty. -/
def Obligations.FetchTakesTheHead : Prop :=
  ∀ (s : State) (d : BitVec 4),
    s.phase = .pack → s.pixv = false → s.col.toNat < s.srcW.toNat → s.planValid = true →
    (∀ p rest, s.pixIn = p :: rest →
      ∃ t, exec (.fetch d) s = .next t ∧ t.pixreg = p ∧ t.pixv = true ∧ t.hrep = 0#16 ∧ t.pixIn = rest
        ∧ t.out = s.out ∧ t.phase = s.phase ∧ t.row = s.row ∧ t.col = s.col ∧ t.vrep = s.vrep ∧ t.slot = s.slot
        ∧ t.bidx = s.bidx ∧ t.acc = s.acc ∧ t.done = s.done ∧ SameLineBuffer s t ∧ SameBesidesMicroStep s t)
    ∧ (s.pixIn = [] → exec (.fetch d) s = .next s)

/-- 43 R136: INSERT.1, format P1. -/
def Obligations.InsertOneBitPixel : Prop :=
  ∀ (s : State) (e : Bool), InsertReady 1 s → ByteDetermined s →
    ∃ t a, exec (.insert1 e) s = .next t ∧ NothingDrawn s t
      ∧ a = s.acc ||| BitVec.ofNat 8 (s.pixreg.toNat % 2 * 2 ^ (7 - s.slot.toNat))
      ∧ InsertResult a a (s.slot.toNat + 1 = 8) s t

/-- 43 R137: INSERT.2, format P2. -/
def Obligations.InsertTwoBitPixel : Prop :=
  ∀ (s : State) (e : Bool), InsertReady 2 s → ByteDetermined s →
    ∃ t a, exec (.insert2 e) s = .next t ∧ NothingDrawn s t
      ∧ a = s.acc ||| BitVec.ofNat 8 (s.pixreg.toNat % 4 * 2 ^ (6 - 2 * s.slot.toNat))
      ∧ InsertResult a a (s.slot.toNat + 1 = 4) s t

/-- 43 R138: INSERT.4, format P4. -/
def Obligations.InsertFourBitPixel : Prop :=
  ∀ (s : State) (e : Bool), InsertReady 4 s → ByteDetermined s →
    ∃ t a, exec (.insert4 e) s = .next t ∧ NothingDrawn s t
      ∧ a = s.acc ||| BitVec.ofNat 8 (s.pixreg.toNat % 16 * 2 ^ (4 - 4 * s.slot.toNat))
      ∧ InsertResult a a (s.slot.toNat + 1 = 2) s t

/-- 43 R139: INSERT.8, format P8: the byte is the pixel and always full, `ACC` and `SLOT` being always 0 at this depth
(which the invariant gives). -/
def Obligations.InsertEightBitPixel : Prop :=
  (∀ (s : State) (e : Bool), InsertReady 8 s → ByteDetermined s → s.acc = 0#8 →
      ∃ t, exec (.insert8 e) s = .next t ∧ NothingDrawn s t ∧ InsertResult s.pixreg s.pixreg True s t)
    ∧ (∀ s : State, Inv s → s.phase = .pack → s.depth = 8#4 → s.acc = 0#8 ∧ s.slot = 0#3)

/-- 43 R135: under the invariant the copy never meets a 1 in `ACC`, so or and sum agree; and the field lies wholly inside
the byte. -/
def Obligations.InsertNeverOverlaps : Prop :=
  ∀ s : State, Inv s → s.phase = .pack → s.pixv = true →
    s.acc &&& BitVec.ofNat 8 (pixelField s.depth.toNat s.pixreg * 2 ^ slotShift s.depth.toNat s.slot.toNat) = 0#8
    ∧ pixelField s.depth.toNat s.pixreg * 2 ^ slotShift s.depth.toNat s.slot.toNat < 256
    ∧ (putPixel s.depth.toNat s.slot.toNat s.acc s.pixreg).toNat
        = s.acc.toNat + pixelField s.depth.toNat s.pixreg * 2 ^ slotShift s.depth.toNat s.slot.toNat

/-- 93 U1: with `OOR_MODE = any value`, a byte that holds a copy of a pixel outside the palette is a free byte when an
INSERT fills it or an EOL flushes it, whatever `ACC` holds; everything else the two do is as in 43 R135 and R140. True for
every value of the free byte. -/
def Obligations.AnyValueModeFreesTheByte : Prop :=
  (∀ (s : State) (d : Nat) (i : Instr), IsInsert d i → InsertReady d s → s.oorMode = .anyValue →
      (s.accTaint = true ∨ s.palLen.toNat ≤ s.pixreg.toNat) →
    ∃ t, exec i s = .next t
      ∧ InsertResult (Config.freeByte s.draws) (putPixel d s.slot.toNat s.acc s.pixreg) (s.slot.toNat + 1 = ppb d) s t
      ∧ (s.slot.toNat + 1 = ppb d → t.draws = s.draws + 1 ∧ t.accTaint = false)
      ∧ (s.slot.toNat + 1 ≠ ppb d → t.draws = s.draws ∧ t.accTaint = true))
  ∧ (∀ (s : State) (d : BitVec 4), s.phase = .pack → s.pixv = false → s.col = s.srcW → s.planValid = true →
      s.slot ≠ 0#3 → s.bidx.toNat < s.lbBytes → s.accTaint = true →
    ∃ t, exec (.eol d) s = .next t ∧ memGet t.lb s.bidx.toNat = some (Config.freeByte s.draws)
      ∧ SameLineBufferExcept s.bidx.toNat s t ∧ t.draws = s.draws + 1 ∧ t.accTaint = false ∧ t.phase = .replay
      ∧ t.acc = 0#8 ∧ t.slot = 0#3 ∧ t.col = 0#16 ∧ t.bidx = 0#32 ∧ t.vrep = 0#16 ∧ t.row = s.row ∧ t.hrep = s.hrep
      ∧ t.pixreg = s.pixreg ∧ t.pixv = s.pixv ∧ t.done = s.done ∧ SameStreams s t ∧ SameRun s t ∧ SameBesidesMicroStep s t)

/-- 43 R140: EOL, when selected. -/
def Obligations.EolTurnsToReplay : Prop :=
  ∀ (s : State) (d : BitVec 4),
    s.phase = .pack → s.pixv = false → s.col = s.srcW → s.planValid = true → s.accTaint = false →
    (s.slot ≠ 0#3 → s.bidx.toNat < s.lbBytes) →
    ∃ t, exec (.eol d) s = .next t
      ∧ (s.slot ≠ 0#3 → memGet t.lb s.bidx.toNat = some s.acc ∧ SameLineBufferExcept s.bidx.toNat s t)
      ∧ (s.slot = 0#3 → SameLineBuffer s t)
      ∧ t.acc = 0#8 ∧ t.slot = 0#3 ∧ t.col = 0#16 ∧ t.bidx = 0#32 ∧ t.vrep = 0#16 ∧ t.phase = .replay
      ∧ t.row = s.row ∧ t.hrep = s.hrep ∧ t.pixreg = s.pixreg ∧ t.pixv = s.pixv ∧ t.done = s.done
      ∧ SameStreams s t ∧ SameRun s t ∧ SameBesidesMicroStep s t

/-- 43 R140, second paragraph: after EOL the line buffer holds the packed scanline `ROW` (under the invariant, where the
bytes are determined). -/
def Obligations.EolLeavesThePackedScanline : Prop :=
  ∀ (s t : State) (d : BitVec 4), Inv s → Determined s → s.phase = .pack → s.pixv = false → s.col = s.srcW →
    exec (.eol d) s = .next t →
    (∀ j < s.bps.toNat, memGet t.lb j = (currentLine s)[j]?)
    ∧ (s.slot ≠ 0#3 → s.bidx.toNat + 1 = s.bps.toNat) ∧ (s.slot = 0#3 → s.bidx = s.bps)

/-- 43 R141: EMIT, when selected: it pushes `LB[BIDX]` and goes on to the next byte, copy, scanline or the end of the
frame; it waits while the sink is not ready. -/
def Obligations.EmitPushesTheByte : Prop :=
  ∀ (s : State) (p e : Bool) (d : BitVec 4), s.phase = .replay → s.planValid = true → s.bidx.toNat < s.bps.toNat →
    s.bidx.toNat < s.lbBytes →
    (s.sinkReady = true → ∃ t, exec (.emit p e d) s = .next t
      ∧ t.out = s.out ++ [(memGet s.lb s.bidx.toNat).getD (Config.lbPowerUp s.bidx.toNat)]
      ∧ (if s.bidx.toNat + 1 < s.bps.toNat then
          t.bidx = s.bidx + 1 ∧ t.vrep = s.vrep ∧ t.row = s.row ∧ t.phase = .replay ∧ t.done = s.done
        else if s.vrep.toNat + 1 < s.scale.toNat then
          t.bidx = 0#32 ∧ t.vrep = s.vrep + 1 ∧ t.row = s.row ∧ t.phase = .replay ∧ t.done = s.done
        else if s.row.toNat + 1 < s.srcH.toNat then
          t.bidx = 0#32 ∧ t.vrep = 0#16 ∧ t.row = s.row + 1 ∧ t.phase = .pack ∧ t.done = s.done
        else t.bidx = 0#32 ∧ t.vrep = 0#16 ∧ t.row = 0#16 ∧ t.phase = .idle ∧ t.done = true)
      ∧ t.pixIn = s.pixIn ∧ t.col = s.col ∧ t.hrep = s.hrep ∧ t.slot = s.slot ∧ t.acc = s.acc ∧ t.pixreg = s.pixreg
      ∧ t.pixv = s.pixv ∧ SameLineBuffer s t ∧ SameBesidesMicroStep s t)
    ∧ (s.sinkReady = false → exec (.emit p e d) s = .next s)

/-- 10 R29: under the invariant the byte EMIT pushes was written; the unspecified contents are never observed. -/
def Obligations.EmittedByteWasWritten : Prop :=
  ∀ (s t : State) (b : Byte), Inv s → s.phase = .replay → step s = .next t → t.emitted = s.emitted ++ [b] →
    memGet s.lb s.bidx.toNat = some b

/-- 43 R134 to R141, the frame of the micro-steps: one that answers a next state leaves alone the configuration, the plan,
`OVR`, `ERR`, the environment's side and every byte of the line buffer but `LB[BIDX]`; only FETCH takes a pixel, only EMIT
pushes a byte or sets `DONE`, and neither of the two writes the line buffer. -/
def Obligations.MicroStepFrame : Prop :=
  ∀ (i : Instr) (s t : State), isMicroStep i = true → exec i s = .next t →
    SameBesidesMicroStep s t ∧ SameLineBufferExcept s.bidx.toNat s t
    ∧ ((∀ d, i ≠ .fetch d) → t.pixIn = s.pixIn ∧ t.pixreg = s.pixreg ∧ t.taken = s.taken)
    ∧ ((∀ p e d, i ≠ .emit p e d) → t.out = s.out ∧ t.done = s.done ∧ t.row = s.row ∧ t.emitted = s.emitted)
    ∧ (∀ d, i = .fetch d → SameLineBuffer s t) ∧ (∀ p e d, i = .emit p e d → SameLineBuffer s t)

/-! ### Whole-machine rules -/

/-- 10 R22: the plan invariant holds at reset and every turn keeps it. -/
def Obligations.PlanInvariantIsKept : Prop :=
  PlanInv State.reset ∧ ∀ s t : State, PlanInv s → step s = .next t → PlanInv t

/-- 10 R29, 20 R43: the line buffer keeps its canonical form and lists only indices that exist. -/
def Obligations.LineBufferFormIsKept : Prop :=
  ∀ s t : State, LineBufferInv s → step s = .next t → LineBufferInv t

/-- The invariant holds at reset. -/
def Obligations.InvariantHoldsAtReset : Prop := Inv State.reset

/-- 10 R26, R28: every turn keeps the whole invariant. -/
def Obligations.InvariantIsKept : Prop :=
  ∀ s t : State, Inv s → step s = .next t → Inv t

/-- 93 U7: the situations the model stops on are unreachable: no state that meets the invariant stops. -/
def Obligations.InvariantStatesNeverStop : Prop :=
  ∀ s : State, Inv s → ∃ t, step s = .next t

/-- 93 U7, 20 R43: an operation stops only in the situations the spec refuses. -/
def Obligations.OperationsStopOnlyWhereRefused : Prop :=
  ∀ (i : Instr) (s : State), nextState? (exec i s) = none →
    isMicroStep i = true ∧ s.phase ≠ .idle
    ∧ (s.planValid = false ∨ s.srcW.toNat < s.col.toNat ∨ ppb s.depth.toNat ≤ s.slot.toNat
      ∨ s.lbBytes ≤ s.bidx.toNat ∨ s.bps.toNat ≤ s.bidx.toNat)

/-- 20 R52, 10 R28 (a): while the block is busy, no turn but a reset changes the configuration or the plan, and a reset
leaves it idle. -/
def Obligations.BusyKeepsConfigurationAndPlan : Prop :=
  ∀ s t : State, s.busy = true → step s = .next t →
    (SameConfig s t ∧ SamePlan s t) ∨ (turnIsReset s ∧ t.busy = false)

/-- 43 R131: all the transitions of `PHASE`. -/
def Obligations.PhaseTransitions : Prop :=
  ∀ s t : State, Inv s → step s = .next t → t.phase ≠ s.phase →
    (s.phase = .idle ∧ t.phase = .pack ∧ (turnInstr s = some .rast ∨ turnInstr s = some .render)
        ∧ t.planValid = true ∧ 0 < t.outH.toNat)
    ∨ (s.phase = .pack ∧ t.phase = .replay ∧ (∃ d, turnInstr s = some (.eol d)) ∧ s.pixv = false ∧ s.col = s.srcW)
    ∨ (s.phase = .replay ∧ (∃ p e d, turnInstr s = some (.emit p e d))
        ∧ s.bidx.toNat + 1 = s.bps.toNat ∧ s.vrep.toNat + 1 = s.scale.toNat
        ∧ ((t.phase = .pack ∧ s.row.toNat + 1 < s.srcH.toNat)
          ∨ (t.phase = .idle ∧ s.row.toNat + 1 = s.srcH.toNat ∧ t.done = true)))
    ∨ (s.phase ≠ .idle ∧ t.phase = .idle ∧ (turnInstr s = some .abort ∨ turnIsReset s))

/-- 60 R174: errors are precise and early. A turn that ends with an error code was already showing it, or is a command
issued while idle that took no pixel, emitted no byte and started nothing. -/
def Obligations.ErrorsArePreciseAndEarly : Prop :=
  (∀ s t : State, step s = .next t → t.err ≠ .noError →
    t.err = s.err
    ∨ (s.phase = .idle ∧ t.phase = .idle ∧ SameStreams s t ∧ SameConfig s t ∧ SameLineBuffer s t ∧ SameRun s t
      ∧ (turnInstr s = some .plan ∨ turnInstr s = some .rast ∨ turnInstr s = some .render
        ∨ ∃ c, turnInstr s = some (.regwr 0#4 c))))
  ∧ (∀ (i : Instr) (s t : State), isMicroStep i = true → exec i s = .next t → t.err = s.err)

/-- 43 R145: within a frame the block takes all of a scanline's pixels, then emits all its bytes. -/
def Obligations.TakingAndEmittingAlternate : Prop :=
  ∀ (s t : State), Inv s → step s = .next t →
    (∀ p, t.taken = s.taken ++ [p] → s.emitted.length = s.taken.length / s.srcW.toNat * (s.scale.toNat * s.bps.toNat))
    ∧ (∀ b, t.emitted = s.emitted ++ [b] →
        s.taken.length = (s.emitted.length / (s.scale.toNat * s.bps.toNat) + 1) * s.srcW.toNat)

/-- 43 R142, for every interleaving: the EMIT that sets `DONE` completes exactly the frame of the pixels taken since the
run began, `SRC_W * SRC_H` of them (where the bytes are determined). -/
def Obligations.LastEmitCompletesTheFrame : Prop :=
  ∀ s t : State, Inv s → step s = .next t → s.phase = .replay → t.phase = .idle → t.done = true →
    t.taken.length = t.srcW.toNat * t.srcH.toNat
    ∧ t.emitted.length = t.bps.toNat * t.outH.toNat
    ∧ (∃ b, t.out = s.out ++ [b] ∧ t.emitted = s.emitted ++ [b])
    ∧ (Determined t → t.emitted = frame t.taken t.srcW.toNat t.srcH.toNat t.scale.toNat t.depth.toNat)

/-- 43 R142, R143: a frame run that nothing interrupts. RAST is accepted, the pixels are there, the sink stays ready and the
environment does nothing: after exactly the counted micro-steps, and not before, the block is idle, `OUT` has gained the
frame, `IN` has lost the frame's pixels, and `STATUS` reads 6. -/
def Obligations.UninterruptedFrameRun : Prop :=
  ∀ (s : State) (px rest : List Byte), Inv s → s.phase = .idle → s.planValid = true → 1 ≤ s.srcH.toNat →
    s.agenda = [] → s.sinkReady = true → s.pixIn = px ++ rest → px.length = s.srcW.toNat * s.srcH.toNat →
    (s.oorMode = .truncate ∨ PixelsInPalette s.palLen.toNat px) →
    ∃ t u, exec .rast s = .next t
      ∧ Sys2Proof.core.run (frameSteps s.srcW.toNat s.srcH.toNat s.scale.toNat s.depth.toNat) t = .next u
      ∧ u.out = s.out ++ frame px s.srcW.toNat s.srcH.toNat s.scale.toNat s.depth.toNat
      ∧ u.pixIn = rest ∧ u.phase = .idle ∧ u.statusWord = 6#32
      ∧ ∀ n, n < frameSteps s.srcW.toNat s.srcH.toNat s.scale.toNat s.depth.toNat →
          ∃ v, Sys2Proof.core.run n t = .next v ∧ v.phase ≠ .idle

/-! ### The rasterizer as a function -/

/-- 42 R117: the frame's length. For pixel lists and depths that are no valid input it says how long the model's total
function is, which is the model's choice (log entry 24). -/
def Obligations.FrameLength : Prop :=
  ∀ (px : List Byte) (w h s d : Nat), (frame px w h s d).length = bytesPerLine d (w * s) * h * s

/-- 42 R114, R115: every output pixel of a frame unpacks to the low `d` bits of its source pixel, and so to the pixel itself
where that fits in `d` bits. -/
def Obligations.FrameUnpacksToTheSource : Prop :=
  ∀ (px : List Byte) (w h s d x y : Nat), IsDepth d → px.length = w * h → x < w * s → y < h * s →
    ∃ p, px[y / s * w + x / s]? = some p
      ∧ unpackPixel (frame px w h s d) d (bytesPerLine d (w * s)) x y = p.toNat % 2 ^ d
      ∧ (p.toNat < 2 ^ d → unpackPixel (frame px w h s d) d (bytesPerLine d (w * s)) x y = p.toNat)

/-- 42 R119: scanline `i*k + j` of the output is the packed form of source scanline `i`. For inputs that are not valid it
speaks of the model's total function (log entry 24). -/
def Obligations.VerticalReplication : Prop :=
  ∀ (px : List Byte) (w h s d i j : Nat), i < h → j < s →
    ((frame px w h s d).drop ((i * s + j) * bytesPerLine d (w * s))).take (bytesPerLine d (w * s))
      = frameLine px w s d i

/-- 42 R111: the unfilled low bits of a scanline's last byte are 0, and a scanline that fills its bytes has no extra one. -/
def Obligations.PaddingIsZero : Prop :=
  ∀ (row : List Byte) (s d : Nat), IsDepth d → 1 ≤ row.length → 1 ≤ s →
    ((row.length * s) % ppb d ≠ 0 →
      (lineByte d (expandRow s row) (bytesPerLine d (row.length * s) - 1)).toNat
        % 2 ^ (8 - d * ((row.length * s) % ppb d)) = 0)
    ∧ ((row.length * s) % ppb d = 0 → bytesPerLine d (row.length * s) * ppb d = row.length * s)

/-! ### Companion functions outside the block -/

/-- 44 R157 to R160: the palette chunk, entry by entry; when the transparency table is there and what it holds; and the
source's lazy construction of it gives the same. -/
def Obligations.PaletteChunks : Prop :=
  ∀ pal : List Color,
    (plte pal).length = 3 * pal.length
    ∧ (∀ (i : Nat) (r g b : Byte), pal[i]? = some (Color.rgb r g b) → ((plte pal).drop (3 * i)).take 3 = [r, g, b])
    ∧ (∀ (i : Nat) (r g b a : Byte), pal[i]? = some (Color.rgba r g b a) → ((plte pal).drop (3 * i)).take 3 = [r, g, b])
    ∧ (trns pal ≠ none ↔ ∃ c ∈ pal, ∃ r g b a, c = Color.rgba r g b a)
    ∧ (∀ table, trns pal = some table → table.length = pal.length
        ∧ (∀ (i : Nat) (r g b : Byte), pal[i]? = some (Color.rgb r g b) → table[i]? = some 255#8)
        ∧ (∀ (i : Nat) (r g b a : Byte), pal[i]? = some (Color.rgba r g b a) → table[i]? = some a))
    ∧ trnsLazy pal = trns pal
end

