-- ==== Sys2Proof/Laws/Decode.lean ====
section
/-! SUPPORT. The fields of a bundle and of a selector read back from the words they were put in. -/

namespace Sys2Proof

@[simp] theorem regWe_bundle (we : Bool) (idx : BitVec 4) (data : Word) : regWe (regBundle we idx data) = we := by
  unfold regWe regBundle
  rw [BitVec.getLsbD_append, BitVec.getLsbD_append]
  cases we <;> rfl

@[simp] theorem regIdx_bundle (we : Bool) (idx : BitVec 4) (data : Word) : regIdx (regBundle we idx data) = idx := by
  unfold regIdx regBundle
  apply BitVec.eq_of_getLsbD_eq
  intro i hi
  rw [BitVec.getLsbD_extractLsb', BitVec.getLsbD_append, BitVec.getLsbD_append]
  simp [hi]

@[simp] theorem regData_bundle (we : Bool) (idx : BitVec 4) (data : Word) :
    regData (regBundle we idx data) = data := by
  unfold regData regBundle
  apply BitVec.eq_of_getLsbD_eq
  intro i hi
  rw [BitVec.getLsbD_extractLsb', BitVec.getLsbD_append]
  simp [hi]

/-- A bundle is made of its fields. -/
theorem bundle_fields (b : BitVec 37) : regBundle (regWe b) (regIdx b) (regData b) = b := by
  unfold regBundle regWe regIdx regData
  apply BitVec.eq_of_getLsbD_eq
  intro i hi
  simp only [BitVec.getLsbD_append, BitVec.getLsbD_extractLsb', BitVec.getLsbD_ofBool]
  by_cases h1 : i < 32
  · simp [h1]
  · by_cases h2 : i < 36
    · have h3 : i - 32 < 4 := by omega
      have h4 : 32 + (i - 32) = i := by omega
      simp [h1, h3, h4]
    · have h3 : i = 36 := by omega
      subst h3
      simp

/-- The fields of a selector, for every value of each. -/
theorem seqWord_fields (ph : BitVec 2) (p e : Bool) (d : BitVec 4) :
    (seqWord ph p e d).extractLsb' 6 2 = ph ∧ (seqWord ph p e d).getLsbD 5 = p
      ∧ (seqWord ph p e d).getLsbD 4 = e ∧ (seqWord ph p e d).extractLsb' 0 4 = d := by
  revert ph p e d; decide

end Sys2Proof
end

