-- ==== Sys2Proof/Laws/Memory.lean ====
section
/-! SUPPORT. The laws of the line buffer: a read after a write to the same index gives the byte written, a write leaves
every other index alone, and the canonical form is kept. -/

namespace Sys2Proof.Machine

@[simp] theorem memGet_memPut_same (m : Memory) (a : Nat) (v : Byte) : memGet (memPut m a v) a = some v := by
  induction m with
  | nil => simp [memPut, memGet]
  | cons c rest ih =>
    obtain ⟨b, x⟩ := c
    simp only [memPut]
    split
    · simp [memGet]
    · split
      · simp [memGet]
      · rename_i h
        simp [memGet, h, ih]

theorem memGet_memPut_ne (m : Memory) (a j : Nat) (v : Byte) (h : j ≠ a) :
    memGet (memPut m a v) j = memGet m j := by
  induction m with
  | nil => simp [memPut, memGet, h]
  | cons c rest ih =>
    obtain ⟨b, x⟩ := c
    simp only [memPut]
    split
    · simp [memGet, h]
    · split
      · rename_i hab
        subst hab
        simp [memGet, h]
      · by_cases hb : j = b
        · simp [memGet, hb]
        · simp [memGet, hb, ih]

theorem memRises_memPut (m : Memory) (lo : Option Nat) (a : Nat) (v : Byte) (hm : memRises lo m = true)
    (hlo : ∀ l, lo = some l → l < a) : memRises lo (memPut m a v) = true := by
  induction m generalizing lo with
  | nil => cases lo <;> simp_all [memPut, memRises]
  | cons c rest ih =>
    obtain ⟨b, x⟩ := c
    have hrest : memRises (some b) rest = true := by cases lo <;> simp_all [memRises]
    simp only [memPut]
    split
    · rename_i hab
      cases lo <;> simp_all [memRises]
    · split
      · rename_i hab
        subst hab
        cases lo <;> simp_all [memRises]
      · rename_i h1 h2
        have := ih (some b) hrest (by intro l hl; cases hl; omega)
        cases lo <;> simp_all [memRises]

/-- Every store keeps the canonical form. -/
theorem memPut_wf (m : Memory) (a : Nat) (v : Byte) (h : Memory.wf m = true) : Memory.wf (memPut m a v) = true :=
  memRises_memPut m none a v h (by simp)

/-- A store below the bound keeps every listed index below it. -/
theorem memPut_below (m : Memory) (bound a : Nat) (v : Byte) (ha : a < bound) (h : memBelow bound m = true) :
    memBelow bound (memPut m a v) = true := by
  induction m with
  | nil => simp [memPut, memBelow, ha]
  | cons c rest ih =>
    obtain ⟨b, x⟩ := c
    simp only [memBelow, Bool.and_eq_true, decide_eq_true_eq] at h
    simp only [memPut]
    split
    · simp [memBelow, ha, h.1, h.2]
    · split
      · simp [memBelow, ha, h.2]
      · simp [memBelow, h.1, ih h.2]

/-- The memory of the launch state is in canonical form. -/
theorem reset_lineBuffer_wf : Memory.wf State.reset.lb = true := rfl

end Sys2Proof.Machine
end

