-- ==== Sys2Proof/Laws/State.lean ====
section
/-! SUPPORT. For each named update of the state, every field of its result: one equation per field, each true by
unfolding, tagged for simp, so that no proof unfolds a record update. -/

namespace Sys2Proof.Machine

/-- 20 R43: a byte store changes the line buffer only. -/
@[simp] theorem lbStore_fields (v : Byte) (s : State) :
    (lbStore v s).lbBytes = s.lbBytes ∧ (lbStore v s).oorMode = s.oorMode ∧ (lbStore v s).palLen = s.palLen
    ∧ (lbStore v s).srcW = s.srcW ∧ (lbStore v s).srcH = s.srcH ∧ (lbStore v s).scale = s.scale
    ∧ (lbStore v s).depth = s.depth ∧ (lbStore v s).outW = s.outW ∧ (lbStore v s).outH = s.outH
    ∧ (lbStore v s).bps = s.bps ∧ (lbStore v s).planValid = s.planValid ∧ (lbStore v s).done = s.done
    ∧ (lbStore v s).ovr = s.ovr ∧ (lbStore v s).err = s.err ∧ (lbStore v s).phase = s.phase
    ∧ (lbStore v s).row = s.row ∧ (lbStore v s).col = s.col ∧ (lbStore v s).hrep = s.hrep
    ∧ (lbStore v s).vrep = s.vrep ∧ (lbStore v s).slot = s.slot ∧ (lbStore v s).bidx = s.bidx
    ∧ (lbStore v s).acc = s.acc ∧ (lbStore v s).pixreg = s.pixreg ∧ (lbStore v s).pixv = s.pixv
    ∧ (lbStore v s).lb = memPut s.lb s.bidx.toNat v ∧ (lbStore v s).pixIn = s.pixIn ∧ (lbStore v s).out = s.out
    ∧ (lbStore v s).sinkReady = s.sinkReady ∧ (lbStore v s).agenda = s.agenda ∧ (lbStore v s).replies = s.replies
    ∧ (lbStore v s).received = s.received ∧ (lbStore v s).accTaint = s.accTaint ∧ (lbStore v s).draws = s.draws
    ∧ (lbStore v s).faultSeen = s.faultSeen ∧ (lbStore v s).taken = s.taken ∧ (lbStore v s).emitted = s.emitted :=
  ⟨rfl, rfl, rfl, rfl, rfl, rfl, rfl, rfl, rfl, rfl, rfl, rfl, rfl, rfl, rfl, rfl, rfl, rfl, rfl, rfl, rfl, rfl, rfl, rfl, rfl, rfl, rfl, rfl, rfl, rfl, rfl, rfl, rfl, rfl, rfl, rfl⟩

/-- 43 R126: acceptance clears the three flags only. -/
@[simp] theorem clearFlags_fields (s : State) :
    (clearFlags s).lbBytes = s.lbBytes ∧ (clearFlags s).oorMode = s.oorMode ∧ (clearFlags s).palLen = s.palLen
    ∧ (clearFlags s).srcW = s.srcW ∧ (clearFlags s).srcH = s.srcH ∧ (clearFlags s).scale = s.scale
    ∧ (clearFlags s).depth = s.depth ∧ (clearFlags s).outW = s.outW ∧ (clearFlags s).outH = s.outH
    ∧ (clearFlags s).bps = s.bps ∧ (clearFlags s).planValid = s.planValid ∧ (clearFlags s).done = false
    ∧ (clearFlags s).ovr = false ∧ (clearFlags s).err = .noError ∧ (clearFlags s).phase = s.phase
    ∧ (clearFlags s).row = s.row ∧ (clearFlags s).col = s.col ∧ (clearFlags s).hrep = s.hrep
    ∧ (clearFlags s).vrep = s.vrep ∧ (clearFlags s).slot = s.slot ∧ (clearFlags s).bidx = s.bidx
    ∧ (clearFlags s).acc = s.acc ∧ (clearFlags s).pixreg = s.pixreg ∧ (clearFlags s).pixv = s.pixv
    ∧ (clearFlags s).lb = s.lb ∧ (clearFlags s).pixIn = s.pixIn ∧ (clearFlags s).out = s.out
    ∧ (clearFlags s).sinkReady = s.sinkReady ∧ (clearFlags s).agenda = s.agenda ∧ (clearFlags s).replies = s.replies
    ∧ (clearFlags s).received = s.received ∧ (clearFlags s).accTaint = s.accTaint ∧ (clearFlags s).draws = s.draws
    ∧ (clearFlags s).faultSeen = s.faultSeen ∧ (clearFlags s).taken = s.taken ∧ (clearFlags s).emitted = s.emitted :=
  ⟨rfl, rfl, rfl, rfl, rfl, rfl, rfl, rfl, rfl, rfl, rfl, rfl, rfl, rfl, rfl, rfl, rfl, rfl, rfl, rfl, rfl, rfl, rfl, rfl, rfl, rfl, rfl, rfl, rfl, rfl, rfl, rfl, rfl, rfl, rfl, rfl⟩

/-- 60 R175: a dropped write sets `OVR` only (and the history flag). -/
@[simp] theorem setOvr_fields (s : State) :
    (setOvr s).lbBytes = s.lbBytes ∧ (setOvr s).oorMode = s.oorMode ∧ (setOvr s).palLen = s.palLen
    ∧ (setOvr s).srcW = s.srcW ∧ (setOvr s).srcH = s.srcH ∧ (setOvr s).scale = s.scale ∧ (setOvr s).depth = s.depth
    ∧ (setOvr s).outW = s.outW ∧ (setOvr s).outH = s.outH ∧ (setOvr s).bps = s.bps
    ∧ (setOvr s).planValid = s.planValid ∧ (setOvr s).done = s.done ∧ (setOvr s).ovr = true ∧ (setOvr s).err = s.err
    ∧ (setOvr s).phase = s.phase ∧ (setOvr s).row = s.row ∧ (setOvr s).col = s.col ∧ (setOvr s).hrep = s.hrep
    ∧ (setOvr s).vrep = s.vrep ∧ (setOvr s).slot = s.slot ∧ (setOvr s).bidx = s.bidx ∧ (setOvr s).acc = s.acc
    ∧ (setOvr s).pixreg = s.pixreg ∧ (setOvr s).pixv = s.pixv ∧ (setOvr s).lb = s.lb ∧ (setOvr s).pixIn = s.pixIn
    ∧ (setOvr s).out = s.out ∧ (setOvr s).sinkReady = s.sinkReady ∧ (setOvr s).agenda = s.agenda
    ∧ (setOvr s).replies = s.replies ∧ (setOvr s).received = s.received ∧ (setOvr s).accTaint = s.accTaint
    ∧ (setOvr s).draws = s.draws ∧ (setOvr s).faultSeen = true ∧ (setOvr s).taken = s.taken
    ∧ (setOvr s).emitted = s.emitted :=
  ⟨rfl, rfl, rfl, rfl, rfl, rfl, rfl, rfl, rfl, rfl, rfl, rfl, rfl, rfl, rfl, rfl, rfl, rfl, rfl, rfl, rfl, rfl, rfl, rfl, rfl, rfl, rfl, rfl, rfl, rfl, rfl, rfl, rfl, rfl, rfl, rfl⟩

/-- 60 R173: the plan goes, nothing else. -/
@[simp] theorem dropPlan_fields (s : State) :
    (dropPlan s).lbBytes = s.lbBytes ∧ (dropPlan s).oorMode = s.oorMode ∧ (dropPlan s).palLen = s.palLen
    ∧ (dropPlan s).srcW = s.srcW ∧ (dropPlan s).srcH = s.srcH ∧ (dropPlan s).scale = s.scale
    ∧ (dropPlan s).depth = 0#4 ∧ (dropPlan s).outW = 0#32 ∧ (dropPlan s).outH = 0#32 ∧ (dropPlan s).bps = 0#32
    ∧ (dropPlan s).planValid = false ∧ (dropPlan s).done = s.done ∧ (dropPlan s).ovr = s.ovr
    ∧ (dropPlan s).err = s.err ∧ (dropPlan s).phase = s.phase ∧ (dropPlan s).row = s.row ∧ (dropPlan s).col = s.col
    ∧ (dropPlan s).hrep = s.hrep ∧ (dropPlan s).vrep = s.vrep ∧ (dropPlan s).slot = s.slot
    ∧ (dropPlan s).bidx = s.bidx ∧ (dropPlan s).acc = s.acc ∧ (dropPlan s).pixreg = s.pixreg
    ∧ (dropPlan s).pixv = s.pixv ∧ (dropPlan s).lb = s.lb ∧ (dropPlan s).pixIn = s.pixIn ∧ (dropPlan s).out = s.out
    ∧ (dropPlan s).sinkReady = s.sinkReady ∧ (dropPlan s).agenda = s.agenda ∧ (dropPlan s).replies = s.replies
    ∧ (dropPlan s).received = s.received ∧ (dropPlan s).accTaint = s.accTaint ∧ (dropPlan s).draws = s.draws
    ∧ (dropPlan s).faultSeen = s.faultSeen ∧ (dropPlan s).taken = s.taken ∧ (dropPlan s).emitted = s.emitted :=
  ⟨rfl, rfl, rfl, rfl, rfl, rfl, rfl, rfl, rfl, rfl, rfl, rfl, rfl, rfl, rfl, rfl, rfl, rfl, rfl, rfl, rfl, rfl, rfl, rfl, rfl, rfl, rfl, rfl, rfl, rfl, rfl, rfl, rfl, rfl, rfl, rfl⟩

/-- 43 R130: the sequencer's variables become 0, nothing else. -/
@[simp] theorem zeroSequencer_fields (s : State) :
    (zeroSequencer s).lbBytes = s.lbBytes ∧ (zeroSequencer s).oorMode = s.oorMode
    ∧ (zeroSequencer s).palLen = s.palLen ∧ (zeroSequencer s).srcW = s.srcW ∧ (zeroSequencer s).srcH = s.srcH
    ∧ (zeroSequencer s).scale = s.scale ∧ (zeroSequencer s).depth = s.depth ∧ (zeroSequencer s).outW = s.outW
    ∧ (zeroSequencer s).outH = s.outH ∧ (zeroSequencer s).bps = s.bps ∧ (zeroSequencer s).planValid = s.planValid
    ∧ (zeroSequencer s).done = s.done ∧ (zeroSequencer s).ovr = s.ovr ∧ (zeroSequencer s).err = s.err
    ∧ (zeroSequencer s).phase = .idle ∧ (zeroSequencer s).row = 0#16 ∧ (zeroSequencer s).col = 0#16
    ∧ (zeroSequencer s).hrep = 0#16 ∧ (zeroSequencer s).vrep = 0#16 ∧ (zeroSequencer s).slot = 0#3
    ∧ (zeroSequencer s).bidx = 0#32 ∧ (zeroSequencer s).acc = 0#8 ∧ (zeroSequencer s).pixreg = 0#8
    ∧ (zeroSequencer s).pixv = false ∧ (zeroSequencer s).lb = s.lb ∧ (zeroSequencer s).pixIn = s.pixIn
    ∧ (zeroSequencer s).out = s.out ∧ (zeroSequencer s).sinkReady = s.sinkReady
    ∧ (zeroSequencer s).agenda = s.agenda ∧ (zeroSequencer s).replies = s.replies
    ∧ (zeroSequencer s).received = s.received ∧ (zeroSequencer s).accTaint = false
    ∧ (zeroSequencer s).draws = s.draws ∧ (zeroSequencer s).faultSeen = s.faultSeen
    ∧ (zeroSequencer s).taken = s.taken ∧ (zeroSequencer s).emitted = s.emitted :=
  ⟨rfl, rfl, rfl, rfl, rfl, rfl, rfl, rfl, rfl, rfl, rfl, rfl, rfl, rfl, rfl, rfl, rfl, rfl, rfl, rfl, rfl, rfl, rfl, rfl, rfl, rfl, rfl, rfl, rfl, rfl, rfl, rfl, rfl, rfl, rfl, rfl⟩

/-- 70 R190: registers and sequencer variables become 0; the rest is kept. -/
@[simp] theorem hardReset_fields (s : State) :
    (hardReset s).lbBytes = s.lbBytes ∧ (hardReset s).oorMode = s.oorMode ∧ (hardReset s).palLen = 0#16
    ∧ (hardReset s).srcW = 0#16 ∧ (hardReset s).srcH = 0#16 ∧ (hardReset s).scale = 0#16 ∧ (hardReset s).depth = 0#4
    ∧ (hardReset s).outW = 0#32 ∧ (hardReset s).outH = 0#32 ∧ (hardReset s).bps = 0#32
    ∧ (hardReset s).planValid = false ∧ (hardReset s).done = false ∧ (hardReset s).ovr = false
    ∧ (hardReset s).err = .noError ∧ (hardReset s).phase = .idle ∧ (hardReset s).row = 0#16
    ∧ (hardReset s).col = 0#16 ∧ (hardReset s).hrep = 0#16 ∧ (hardReset s).vrep = 0#16 ∧ (hardReset s).slot = 0#3
    ∧ (hardReset s).bidx = 0#32 ∧ (hardReset s).acc = 0#8 ∧ (hardReset s).pixreg = 0#8 ∧ (hardReset s).pixv = false
    ∧ (hardReset s).lb = s.lb ∧ (hardReset s).pixIn = s.pixIn ∧ (hardReset s).out = s.out
    ∧ (hardReset s).sinkReady = s.sinkReady ∧ (hardReset s).agenda = s.agenda ∧ (hardReset s).replies = s.replies
    ∧ (hardReset s).received = s.received ∧ (hardReset s).accTaint = false ∧ (hardReset s).draws = s.draws
    ∧ (hardReset s).faultSeen = s.faultSeen ∧ (hardReset s).taken = s.taken ∧ (hardReset s).emitted = s.emitted :=
  ⟨rfl, rfl, rfl, rfl, rfl, rfl, rfl, rfl, rfl, rfl, rfl, rfl, rfl, rfl, rfl, rfl, rfl, rfl, rfl, rfl, rfl, rfl, rfl, rfl, rfl, rfl, rfl, rfl, rfl, rfl, rfl, rfl, rfl, rfl, rfl, rfl⟩

/-- 43 R130: ABORT clears the flags and the sequencer. -/
@[simp] theorem doAbort_fields (s : State) :
    (doAbort s).lbBytes = s.lbBytes ∧ (doAbort s).oorMode = s.oorMode ∧ (doAbort s).palLen = s.palLen
    ∧ (doAbort s).srcW = s.srcW ∧ (doAbort s).srcH = s.srcH ∧ (doAbort s).scale = s.scale
    ∧ (doAbort s).depth = s.depth ∧ (doAbort s).outW = s.outW ∧ (doAbort s).outH = s.outH ∧ (doAbort s).bps = s.bps
    ∧ (doAbort s).planValid = s.planValid ∧ (doAbort s).done = false ∧ (doAbort s).ovr = false
    ∧ (doAbort s).err = .noError ∧ (doAbort s).phase = .idle ∧ (doAbort s).row = 0#16 ∧ (doAbort s).col = 0#16
    ∧ (doAbort s).hrep = 0#16 ∧ (doAbort s).vrep = 0#16 ∧ (doAbort s).slot = 0#3 ∧ (doAbort s).bidx = 0#32
    ∧ (doAbort s).acc = 0#8 ∧ (doAbort s).pixreg = 0#8 ∧ (doAbort s).pixv = false ∧ (doAbort s).lb = s.lb
    ∧ (doAbort s).pixIn = s.pixIn ∧ (doAbort s).out = s.out ∧ (doAbort s).sinkReady = s.sinkReady
    ∧ (doAbort s).agenda = s.agenda ∧ (doAbort s).replies = s.replies ∧ (doAbort s).received = s.received
    ∧ (doAbort s).accTaint = false ∧ (doAbort s).draws = s.draws ∧ (doAbort s).faultSeen = s.faultSeen
    ∧ (doAbort s).taken = s.taken ∧ (doAbort s).emitted = s.emitted :=
  ⟨rfl, rfl, rfl, rfl, rfl, rfl, rfl, rfl, rfl, rfl, rfl, rfl, rfl, rfl, rfl, rfl, rfl, rfl, rfl, rfl, rfl, rfl, rfl, rfl, rfl, rfl, rfl, rfl, rfl, rfl, rfl, rfl, rfl, rfl, rfl, rfl⟩

/-- 41 R100: a successful plan writes the four plan registers and `PLAN_VALID`. -/
@[simp] theorem commitPlan_fields (d ow oh n : Nat) (s : State) :
    (commitPlan d ow oh n s).lbBytes = s.lbBytes ∧ (commitPlan d ow oh n s).oorMode = s.oorMode
    ∧ (commitPlan d ow oh n s).palLen = s.palLen ∧ (commitPlan d ow oh n s).srcW = s.srcW
    ∧ (commitPlan d ow oh n s).srcH = s.srcH ∧ (commitPlan d ow oh n s).scale = s.scale
    ∧ (commitPlan d ow oh n s).depth = BitVec.ofNat 4 d ∧ (commitPlan d ow oh n s).outW = BitVec.ofNat 32 ow
    ∧ (commitPlan d ow oh n s).outH = BitVec.ofNat 32 oh ∧ (commitPlan d ow oh n s).bps = BitVec.ofNat 32 n
    ∧ (commitPlan d ow oh n s).planValid = true ∧ (commitPlan d ow oh n s).done = s.done
    ∧ (commitPlan d ow oh n s).ovr = s.ovr ∧ (commitPlan d ow oh n s).err = s.err
    ∧ (commitPlan d ow oh n s).phase = s.phase ∧ (commitPlan d ow oh n s).row = s.row
    ∧ (commitPlan d ow oh n s).col = s.col ∧ (commitPlan d ow oh n s).hrep = s.hrep
    ∧ (commitPlan d ow oh n s).vrep = s.vrep ∧ (commitPlan d ow oh n s).slot = s.slot
    ∧ (commitPlan d ow oh n s).bidx = s.bidx ∧ (commitPlan d ow oh n s).acc = s.acc
    ∧ (commitPlan d ow oh n s).pixreg = s.pixreg ∧ (commitPlan d ow oh n s).pixv = s.pixv
    ∧ (commitPlan d ow oh n s).lb = s.lb ∧ (commitPlan d ow oh n s).pixIn = s.pixIn
    ∧ (commitPlan d ow oh n s).out = s.out ∧ (commitPlan d ow oh n s).sinkReady = s.sinkReady
    ∧ (commitPlan d ow oh n s).agenda = s.agenda ∧ (commitPlan d ow oh n s).replies = s.replies
    ∧ (commitPlan d ow oh n s).received = s.received ∧ (commitPlan d ow oh n s).accTaint = s.accTaint
    ∧ (commitPlan d ow oh n s).draws = s.draws ∧ (commitPlan d ow oh n s).faultSeen = s.faultSeen
    ∧ (commitPlan d ow oh n s).taken = s.taken ∧ (commitPlan d ow oh n s).emitted = s.emitted :=
  ⟨rfl, rfl, rfl, rfl, rfl, rfl, rfl, rfl, rfl, rfl, rfl, rfl, rfl, rfl, rfl, rfl, rfl, rfl, rfl, rfl, rfl, rfl, rfl, rfl, rfl, rfl, rfl, rfl, rfl, rfl, rfl, rfl, rfl, rfl, rfl, rfl⟩

/-- 43 R134: FETCH's effect. -/
@[simp] theorem takePixel_fields (p : Byte) (rest : List Byte) (s : State) :
    (takePixel p rest s).lbBytes = s.lbBytes ∧ (takePixel p rest s).oorMode = s.oorMode
    ∧ (takePixel p rest s).palLen = s.palLen ∧ (takePixel p rest s).srcW = s.srcW
    ∧ (takePixel p rest s).srcH = s.srcH ∧ (takePixel p rest s).scale = s.scale
    ∧ (takePixel p rest s).depth = s.depth ∧ (takePixel p rest s).outW = s.outW ∧ (takePixel p rest s).outH = s.outH
    ∧ (takePixel p rest s).bps = s.bps ∧ (takePixel p rest s).planValid = s.planValid
    ∧ (takePixel p rest s).done = s.done ∧ (takePixel p rest s).ovr = s.ovr ∧ (takePixel p rest s).err = s.err
    ∧ (takePixel p rest s).phase = s.phase ∧ (takePixel p rest s).row = s.row ∧ (takePixel p rest s).col = s.col
    ∧ (takePixel p rest s).hrep = 0#16 ∧ (takePixel p rest s).vrep = s.vrep ∧ (takePixel p rest s).slot = s.slot
    ∧ (takePixel p rest s).bidx = s.bidx ∧ (takePixel p rest s).acc = s.acc ∧ (takePixel p rest s).pixreg = p
    ∧ (takePixel p rest s).pixv = true ∧ (takePixel p rest s).lb = s.lb ∧ (takePixel p rest s).pixIn = rest
    ∧ (takePixel p rest s).out = s.out ∧ (takePixel p rest s).sinkReady = s.sinkReady
    ∧ (takePixel p rest s).agenda = s.agenda ∧ (takePixel p rest s).replies = s.replies
    ∧ (takePixel p rest s).received = s.received ∧ (takePixel p rest s).accTaint = s.accTaint
    ∧ (takePixel p rest s).draws = s.draws ∧ (takePixel p rest s).faultSeen = s.faultSeen
    ∧ (takePixel p rest s).taken = s.taken ++ [p] ∧ (takePixel p rest s).emitted = s.emitted :=
  ⟨rfl, rfl, rfl, rfl, rfl, rfl, rfl, rfl, rfl, rfl, rfl, rfl, rfl, rfl, rfl, rfl, rfl, rfl, rfl, rfl, rfl, rfl, rfl, rfl, rfl, rfl, rfl, rfl, rfl, rfl, rfl, rfl, rfl, rfl, rfl, rfl⟩

/-- 43 R140: EOL's turn to replay. -/
@[simp] theorem turnToReplay_fields (s : State) :
    (turnToReplay s).lbBytes = s.lbBytes ∧ (turnToReplay s).oorMode = s.oorMode ∧ (turnToReplay s).palLen = s.palLen
    ∧ (turnToReplay s).srcW = s.srcW ∧ (turnToReplay s).srcH = s.srcH ∧ (turnToReplay s).scale = s.scale
    ∧ (turnToReplay s).depth = s.depth ∧ (turnToReplay s).outW = s.outW ∧ (turnToReplay s).outH = s.outH
    ∧ (turnToReplay s).bps = s.bps ∧ (turnToReplay s).planValid = s.planValid ∧ (turnToReplay s).done = s.done
    ∧ (turnToReplay s).ovr = s.ovr ∧ (turnToReplay s).err = s.err ∧ (turnToReplay s).phase = .replay
    ∧ (turnToReplay s).row = s.row ∧ (turnToReplay s).col = 0#16 ∧ (turnToReplay s).hrep = s.hrep
    ∧ (turnToReplay s).vrep = 0#16 ∧ (turnToReplay s).slot = 0#3 ∧ (turnToReplay s).bidx = 0#32
    ∧ (turnToReplay s).acc = 0#8 ∧ (turnToReplay s).pixreg = s.pixreg ∧ (turnToReplay s).pixv = s.pixv
    ∧ (turnToReplay s).lb = s.lb ∧ (turnToReplay s).pixIn = s.pixIn ∧ (turnToReplay s).out = s.out
    ∧ (turnToReplay s).sinkReady = s.sinkReady ∧ (turnToReplay s).agenda = s.agenda
    ∧ (turnToReplay s).replies = s.replies ∧ (turnToReplay s).received = s.received
    ∧ (turnToReplay s).accTaint = false ∧ (turnToReplay s).draws = s.draws
    ∧ (turnToReplay s).faultSeen = s.faultSeen ∧ (turnToReplay s).taken = s.taken
    ∧ (turnToReplay s).emitted = s.emitted :=
  ⟨rfl, rfl, rfl, rfl, rfl, rfl, rfl, rfl, rfl, rfl, rfl, rfl, rfl, rfl, rfl, rfl, rfl, rfl, rfl, rfl, rfl, rfl, rfl, rfl, rfl, rfl, rfl, rfl, rfl, rfl, rfl, rfl, rfl, rfl, rfl, rfl⟩

/-- 20 R45: a byte is handed over. -/
@[simp] theorem pushByte_fields (b : Byte) (s : State) :
    (pushByte b s).lbBytes = s.lbBytes ∧ (pushByte b s).oorMode = s.oorMode ∧ (pushByte b s).palLen = s.palLen
    ∧ (pushByte b s).srcW = s.srcW ∧ (pushByte b s).srcH = s.srcH ∧ (pushByte b s).scale = s.scale
    ∧ (pushByte b s).depth = s.depth ∧ (pushByte b s).outW = s.outW ∧ (pushByte b s).outH = s.outH
    ∧ (pushByte b s).bps = s.bps ∧ (pushByte b s).planValid = s.planValid ∧ (pushByte b s).done = s.done
    ∧ (pushByte b s).ovr = s.ovr ∧ (pushByte b s).err = s.err ∧ (pushByte b s).phase = s.phase
    ∧ (pushByte b s).row = s.row ∧ (pushByte b s).col = s.col ∧ (pushByte b s).hrep = s.hrep
    ∧ (pushByte b s).vrep = s.vrep ∧ (pushByte b s).slot = s.slot ∧ (pushByte b s).bidx = s.bidx
    ∧ (pushByte b s).acc = s.acc ∧ (pushByte b s).pixreg = s.pixreg ∧ (pushByte b s).pixv = s.pixv
    ∧ (pushByte b s).lb = s.lb ∧ (pushByte b s).pixIn = s.pixIn ∧ (pushByte b s).out = s.out ++ [b]
    ∧ (pushByte b s).sinkReady = s.sinkReady ∧ (pushByte b s).agenda = s.agenda ∧ (pushByte b s).replies = s.replies
    ∧ (pushByte b s).received = s.received ∧ (pushByte b s).accTaint = s.accTaint ∧ (pushByte b s).draws = s.draws
    ∧ (pushByte b s).faultSeen = s.faultSeen ∧ (pushByte b s).taken = s.taken
    ∧ (pushByte b s).emitted = s.emitted ++ [b] :=
  ⟨rfl, rfl, rfl, rfl, rfl, rfl, rfl, rfl, rfl, rfl, rfl, rfl, rfl, rfl, rfl, rfl, rfl, rfl, rfl, rfl, rfl, rfl, rfl, rfl, rfl, rfl, rfl, rfl, rfl, rfl, rfl, rfl, rfl, rfl, rfl, rfl⟩

/-- An event is put first on the agenda. -/
@[simp] theorem schedule_fields (e : Event) (s : State) :
    (schedule e s).lbBytes = s.lbBytes ∧ (schedule e s).oorMode = s.oorMode ∧ (schedule e s).palLen = s.palLen
    ∧ (schedule e s).srcW = s.srcW ∧ (schedule e s).srcH = s.srcH ∧ (schedule e s).scale = s.scale
    ∧ (schedule e s).depth = s.depth ∧ (schedule e s).outW = s.outW ∧ (schedule e s).outH = s.outH
    ∧ (schedule e s).bps = s.bps ∧ (schedule e s).planValid = s.planValid ∧ (schedule e s).done = s.done
    ∧ (schedule e s).ovr = s.ovr ∧ (schedule e s).err = s.err ∧ (schedule e s).phase = s.phase
    ∧ (schedule e s).row = s.row ∧ (schedule e s).col = s.col ∧ (schedule e s).hrep = s.hrep
    ∧ (schedule e s).vrep = s.vrep ∧ (schedule e s).slot = s.slot ∧ (schedule e s).bidx = s.bidx
    ∧ (schedule e s).acc = s.acc ∧ (schedule e s).pixreg = s.pixreg ∧ (schedule e s).pixv = s.pixv
    ∧ (schedule e s).lb = s.lb ∧ (schedule e s).pixIn = s.pixIn ∧ (schedule e s).out = s.out
    ∧ (schedule e s).sinkReady = s.sinkReady ∧ (schedule e s).agenda = e :: s.agenda
    ∧ (schedule e s).replies = s.replies ∧ (schedule e s).received = s.received
    ∧ (schedule e s).accTaint = s.accTaint ∧ (schedule e s).draws = s.draws ∧ (schedule e s).faultSeen = s.faultSeen
    ∧ (schedule e s).taken = s.taken ∧ (schedule e s).emitted = s.emitted :=
  ⟨rfl, rfl, rfl, rfl, rfl, rfl, rfl, rfl, rfl, rfl, rfl, rfl, rfl, rfl, rfl, rfl, rfl, rfl, rfl, rfl, rfl, rfl, rfl, rfl, rfl, rfl, rfl, rfl, rfl, rfl, rfl, rfl, rfl, rfl, rfl, rfl⟩

/-- 40 R86: PIXDROP empties `IN`. -/
@[simp] theorem dropPixels_fields (s : State) :
    (dropPixels s).lbBytes = s.lbBytes ∧ (dropPixels s).oorMode = s.oorMode ∧ (dropPixels s).palLen = s.palLen
    ∧ (dropPixels s).srcW = s.srcW ∧ (dropPixels s).srcH = s.srcH ∧ (dropPixels s).scale = s.scale
    ∧ (dropPixels s).depth = s.depth ∧ (dropPixels s).outW = s.outW ∧ (dropPixels s).outH = s.outH
    ∧ (dropPixels s).bps = s.bps ∧ (dropPixels s).planValid = s.planValid ∧ (dropPixels s).done = s.done
    ∧ (dropPixels s).ovr = s.ovr ∧ (dropPixels s).err = s.err ∧ (dropPixels s).phase = s.phase
    ∧ (dropPixels s).row = s.row ∧ (dropPixels s).col = s.col ∧ (dropPixels s).hrep = s.hrep
    ∧ (dropPixels s).vrep = s.vrep ∧ (dropPixels s).slot = s.slot ∧ (dropPixels s).bidx = s.bidx
    ∧ (dropPixels s).acc = s.acc ∧ (dropPixels s).pixreg = s.pixreg ∧ (dropPixels s).pixv = s.pixv
    ∧ (dropPixels s).lb = s.lb ∧ (dropPixels s).pixIn = [] ∧ (dropPixels s).out = s.out
    ∧ (dropPixels s).sinkReady = s.sinkReady ∧ (dropPixels s).agenda = s.agenda ∧ (dropPixels s).replies = s.replies
    ∧ (dropPixels s).received = s.received ∧ (dropPixels s).accTaint = s.accTaint ∧ (dropPixels s).draws = s.draws
    ∧ (dropPixels s).faultSeen = s.faultSeen ∧ (dropPixels s).taken = s.taken ∧ (dropPixels s).emitted = s.emitted :=
  ⟨rfl, rfl, rfl, rfl, rfl, rfl, rfl, rfl, rfl, rfl, rfl, rfl, rfl, rfl, rfl, rfl, rfl, rfl, rfl, rfl, rfl, rfl, rfl, rfl, rfl, rfl, rfl, rfl, rfl, rfl, rfl, rfl, rfl, rfl, rfl, rfl⟩

end Sys2Proof.Machine
end

