-- ==== Sys2Proof/Laws/Ops.lean ====
section
/-! SUPPORT. What each shared operation can do, said once: an operation with branches gets one lemma that lists them, and
an operation that can stop gets an inversion lemma from its next state. -/

namespace Sys2Proof.Machine

/-! ### Flags and errors -/

@[simp] theorem busy_eq_false (s : State) : s.busy = false ↔ s.phase = .idle := by
  unfold State.busy; cases s.phase <;> simp

@[simp] theorem busy_eq_true (s : State) : s.busy = true ↔ s.phase ≠ .idle := by
  unfold State.busy; cases s.phase <;> simp

/-- 60 R173: a planner failure records its code and drops the plan. -/
theorem raiseError_planner {code : ErrCode} (h : code.isPlanner = true) (s : State) :
    raiseError code s = dropPlan { s with err := code, faultSeen := true } := by simp [raiseError, h]

/-- 60 R173: any other error records its code only. -/
theorem raiseError_other {code : ErrCode} (h : code.isPlanner = false) (s : State) :
    raiseError code s = { s with err := code, faultSeen := true } := by simp [raiseError, h]

/-- 40 R83: while busy the command is dropped. -/
theorem acceptIdle_busy (f : State → State) {s : State} (h : s.phase ≠ .idle) : acceptIdle f s = setOvr s := by
  simp [acceptIdle, (busy_eq_true s).2 h]

/-- 40 R83: while idle it is accepted, the flags being cleared first. -/
theorem acceptIdle_idle (f : State → State) {s : State} (h : s.phase = .idle) : acceptIdle f s = f (clearFlags s) := by
  simp [acceptIdle, (busy_eq_false s).2 h]

/-! ### The planner -/

/-- What the planner can answer, with the conditions of 41 R99. -/
theorem planner_cases (lb p w h s : Nat) :
    (256 < p ∧ planner lb p w h s = .failure .paletteTooBig)
    ∨ (p < 2 ∧ planner lb p w h s = .failure .paletteTooSmall)
    ∨ (2 ≤ p ∧ p ≤ 256 ∧ (w = 0 ∨ s = 0) ∧ planner lb p w h s = .failure .zeroDim)
    ∨ (2 ≤ p ∧ p ≤ 256 ∧ w ≠ 0 ∧ s ≠ 0 ∧ lb < bytesPerLine (depthOf p) (w * s)
        ∧ planner lb p w h s = .failure .lineTooLong)
    ∨ (2 ≤ p ∧ p ≤ 256 ∧ w ≠ 0 ∧ s ≠ 0 ∧ bytesPerLine (depthOf p) (w * s) ≤ lb
        ∧ planner lb p w h s = .plan (depthOf p) (w * s) (h * s) (bytesPerLine (depthOf p) (w * s))) := by
  unfold planner Config.palMax Config.palMin
  split
  · exact .inl ⟨by omega, rfl⟩
  · split
    · exact .inr (.inl ⟨by omega, rfl⟩)
    · split
      · rename_i h3
        exact .inr (.inr (.inl ⟨by omega, by omega, h3, rfl⟩))
      · rename_i h3
        rw [not_or] at h3
        split
        · exact .inr (.inr (.inr (.inl ⟨by omega, by omega, h3.1, h3.2, by omega, rfl⟩)))
        · exact .inr (.inr (.inr (.inr ⟨by omega, by omega, h3.1, h3.2, by omega, rfl⟩)))

/-- The planner fails only with its own four codes (60 R173). -/
theorem planner_failure {lb p w h s : Nat} {code : ErrCode} (hf : planner lb p w h s = .failure code) :
    code.isPlanner = true := by
  rcases planner_cases lb p w h s with ⟨_, e⟩ | ⟨_, e⟩ | ⟨_, _, _, e⟩ | ⟨_, _, _, _, _, e⟩ | ⟨_, _, _, _, _, e⟩ <;>
    rw [e] at hf <;> cases hf <;> rfl

/-- `depth(p)` is one of the four depths (41 R92). -/
theorem depthOf_cases (p : Nat) : depthOf p = 1 ∨ depthOf p = 2 ∨ depthOf p = 4 ∨ depthOf p = 8 := by
  unfold depthOf; split <;> [skip; split <;> [skip; split]] <;> simp

theorem depthOf_lt_16 (p : Nat) : depthOf p < 16 := by rcases depthOf_cases p with h | h | h | h <;> omega

/-- A packed scanline has no more bytes than pixels (00 R6). -/
theorem bytesPerLine_le (p ow : Nat) : bytesPerLine (depthOf p) ow ≤ ow := by
  rcases depthOf_cases p with h | h | h | h <;> rw [h] <;> unfold bytesPerLine <;> omega

/-- A product of two register values fits a result register (00 R6). -/
theorem half_mul_lt (a b : Half) : a.toNat * b.toNat < 2 ^ 32 := by
  have h1 : a.toNat ≤ 65535 := by omega
  have h2 : b.toNat ≤ 65535 := by omega
  calc a.toNat * b.toNat ≤ 65535 * 65535 := Nat.mul_le_mul h1 h2
    _ < 2 ^ 32 := by norm_num

/-! ### Commands -/

/-- 43 R128: what an accepted RAST does from its second test on. -/
theorem startFrame_empty {s : State} (h : s.outH = 0#32) :
    startFrame s = { s with done := true, taken := [], emitted := [] } := by simp [startFrame, h]

theorem startFrame_frame {s : State} (h : s.outH ≠ 0#32) :
    startFrame s =
      { s with
        phase := .pack, row := 0#16, col := 0#16, hrep := 0#16, vrep := 0#16, slot := 0#3, bidx := 0#32, acc := 0#8,
        pixv := false, accTaint := false, taken := [], emitted := [] } := by simp [startFrame, h]

/-- 41 R99: what an accepted PLAN does, the five answers of the planner. -/
theorem doPlan_cases (s : State) :
    (∃ code, code.isPlanner = true ∧ planOf s = .failure code ∧ doPlan s = raiseError code s)
    ∨ (planOf s = .plan (depthOf s.palLen.toNat) (s.srcW.toNat * s.scale.toNat) (s.srcH.toNat * s.scale.toNat)
          (bytesPerLine (depthOf s.palLen.toNat) (s.srcW.toNat * s.scale.toNat))
        ∧ doPlan s = commitPlan (depthOf s.palLen.toNat) (s.srcW.toNat * s.scale.toNat)
          (s.srcH.toNat * s.scale.toNat) (bytesPerLine (depthOf s.palLen.toNat) (s.srcW.toNat * s.scale.toNat)) s) := by
  rcases planner_cases s.lbBytes s.palLen.toNat s.srcW.toNat s.srcH.toNat s.scale.toNat with
    ⟨_, e⟩ | ⟨_, e⟩ | ⟨_, _, _, e⟩ | ⟨_, _, _, _, _, e⟩ | ⟨_, _, _, _, _, e⟩
  · exact .inl ⟨_, rfl, e, by simp [doPlan, planOf, e]⟩
  · exact .inl ⟨_, rfl, e, by simp [doPlan, planOf, e]⟩
  · exact .inl ⟨_, rfl, e, by simp [doPlan, planOf, e]⟩
  · exact .inl ⟨_, rfl, e, by simp [doPlan, planOf, e]⟩
  · exact .inr ⟨e, by simp [doPlan, planOf, e]⟩

/-- 43 R129: an accepted RENDER is an accepted PLAN, and where that planned, RAST from its second test on. -/
theorem doRender_cases (s : State) :
    (∃ code, planOf s = .failure code ∧ doRender s = doPlan s)
    ∨ (∃ d ow oh n, planOf s = .plan d ow oh n ∧ doRender s = startFrame (doPlan s)) := by
  unfold doRender doPlan
  cases planOf s with
  | failure code => exact .inl ⟨code, rfl, rfl⟩
  | plan d ow oh n => exact .inr ⟨d, ow, oh, n, rfl, rfl⟩

/-- 43 R128: an accepted RAST. -/
theorem doRast_cases (s : State) :
    (s.planValid = false ∧ doRast s = raiseError .noPlan s) ∨ (s.planValid = true ∧ doRast s = startFrame s) := by
  cases h : s.planValid <;> simp [doRast, h]

/-- 40 R83: what a REGWR to `CMD` can do, branch by branch. -/
theorem issueCommand_cases (c : Word) (s : State) :
    (c = 0#32 ∧ issueCommand c s = s) ∨ (c = 4#32 ∧ issueCommand c s = doAbort s)
    ∨ (c = 1#32 ∧ issueCommand c s = acceptIdle doPlan s) ∨ (c = 2#32 ∧ issueCommand c s = acceptIdle doRast s)
    ∨ (c = 3#32 ∧ issueCommand c s = acceptIdle doRender s) ∨ (5 ≤ c.toNat ∧ issueCommand c s = badCommand s) := by
  unfold issueCommand
  by_cases h0 : c = 0#32
  · simp [h0]
  by_cases h4 : c = 4#32
  · simp [h4]
  by_cases h1 : c = 1#32
  · simp [h1]
  by_cases h2 : c = 2#32
  · simp [h2]
  by_cases h3 : c = 3#32
  · simp [h3]
  refine .inr (.inr (.inr (.inr (.inr ⟨?_, by simp [h0, h1, h2, h3, h4]⟩))))
  simp only [BitVec.toNat_eq, BitVec.toNat_ofNat] at h0 h1 h2 h3 h4
  omega

/-- 40 R84: a configuration write. -/
theorem configWrite_cases (idx : BitVec 4) (data : Word) (s : State) :
    (s.phase ≠ .idle ∧ configWrite idx data s = setOvr s)
    ∨ (s.phase = .idle ∧ configWrite idx data s = dropPlan (configStore idx (configValue data) s)) := by
  unfold configWrite
  by_cases h : s.phase = .idle
  · exact .inr ⟨h, by simp [(busy_eq_false s).2 h]⟩
  · exact .inl ⟨h, by simp [(busy_eq_true s).2 h]⟩

/-- 40 R83, 60 R170: a reserved command word. -/
theorem badCommand_cases (s : State) :
    (s.phase ≠ .idle ∧ badCommand s = setOvr s) ∨ (s.phase = .idle ∧ badCommand s = raiseError .badCmd s) := by
  unfold badCommand
  by_cases h : s.phase = .idle
  · exact .inr ⟨h, by simp [(busy_eq_false s).2 h]⟩
  · exact .inl ⟨h, by simp [(busy_eq_true s).2 h]⟩

/-! ### Micro-steps: from a next state back to what happened -/

/-- FETCH: it was not enabled, or it took the head of `IN`. -/
theorem execFetch_next {d : BitVec 4} {s t : State} (h : execFetch d s = .next t) :
    t = s ∨ (s.phase = .pack ∧ s.pixv = false ∧ s.col.toNat < s.srcW.toNat ∧ s.planValid = true
      ∧ ∃ p rest, s.pixIn = p :: rest ∧ t = takePixel p rest s) := by
  unfold execFetch at h
  split at h
  · rename_i hs
    split at h
    · cases h
    · rename_i hp
      split at h
      · cases h
      · rename_i hc
        split at h
        · cases h; exact .inl rfl
        · rename_i p rest hin
          cases h
          refine .inr ⟨hs.1, hs.2.1, ?_, by simpa using hp, p, rest, hin, rfl⟩
          have hne : s.col.toNat ≠ s.srcW.toNat := fun he => hs.2.2 (BitVec.eq_of_toNat_eq he)
          omega
  · cases h; exact .inl rfl

/-- INSERT: it was not selected, or it filled the byte, or it extended it. -/
theorem insertCopy_next {d : Nat} {s t : State} (h : insertCopy d s = .next t) :
    t = s ∨ (s.phase = .pack ∧ s.pixv = true ∧ s.depth = BitVec.ofNat 4 d ∧ s.planValid = true
      ∧ s.slot.toNat < ppb d
      ∧ ((s.slot.toNat + 1 = ppb d ∧ s.bidx.toNat < s.lbBytes ∧ t = nextCopy (finishByte d s))
        ∨ (s.slot.toNat + 1 ≠ ppb d ∧ t = nextCopy (extendByte d s)))) := by
  unfold insertCopy at h
  split at h
  · rename_i hs
    split at h
    · cases h
    · rename_i hp
      split at h
      · cases h
      · rename_i hsl
        refine .inr ⟨hs.1, hs.2.1, hs.2.2, by simpa using hp, by omega, ?_⟩
        split at h
        · rename_i hfull
          split at h
          · rename_i hb
            cases h; exact .inl ⟨hfull, hb, rfl⟩
          · cases h
        · rename_i hfull
          cases h; exact .inr ⟨hfull, rfl⟩
  · cases h; exact .inl rfl

/-- EOL: it was not selected, or it turned to replay, flushing the byte if one was begun. -/
theorem execEol_next {d : BitVec 4} {s t : State} (h : execEol d s = .next t) :
    t = s ∨ (s.phase = .pack ∧ s.pixv = false ∧ s.col = s.srcW ∧ s.planValid = true
      ∧ ((s.slot = 0#3 ∧ t = turnToReplay s)
        ∨ (s.slot ≠ 0#3 ∧ s.bidx.toNat < s.lbBytes ∧ t = turnToReplay (storeByte s.accTaint s.acc s)))) := by
  unfold execEol at h
  split at h
  · rename_i hs
    split at h
    · cases h
    · rename_i hp
      refine .inr ⟨hs.1, hs.2.1, hs.2.2, by simpa using hp, ?_⟩
      split at h
      · rename_i h0
        cases h; exact .inl ⟨h0, rfl⟩
      · rename_i h0
        split at h
        · rename_i hb
          cases h; exact .inr ⟨h0, hb, rfl⟩
        · cases h
  · cases h; exact .inl rfl

/-- EMIT: it was not enabled, or it pushed `LB[BIDX]` and moved on. -/
theorem execEmit_next {p e : Bool} {d : BitVec 4} {s t : State} (h : execEmit p e d s = .next t) :
    t = s ∨ (s.phase = .replay ∧ s.sinkReady = true ∧ s.planValid = true ∧ s.bidx.toNat < s.bps.toNat
      ∧ s.bidx.toNat < s.lbBytes ∧ t = afterEmit (pushByte (lbRead s.lb s.bidx.toNat) s)) := by
  unfold execEmit at h
  split at h
  · rename_i hs
    split at h
    · cases h
    · rename_i hp
      split at h
      · cases h
      · rename_i hb
        split at h
        · rename_i hl
          cases h; exact .inr ⟨hs.1, hs.2, by simpa using hp, by omega, hl, rfl⟩
        · cases h
  · cases h; exact .inl rfl

/-- Where EMIT goes on to (43 R141), the four branches. -/
theorem afterEmit_cases (s : State) :
    (s.bidx.toNat + 1 < s.bps.toNat ∧ afterEmit s = { s with bidx := s.bidx + 1 })
    ∨ (s.bps.toNat ≤ s.bidx.toNat + 1 ∧ s.vrep.toNat + 1 < s.scale.toNat
        ∧ afterEmit s = { s with bidx := 0#32, vrep := s.vrep + 1 })
    ∨ (s.bps.toNat ≤ s.bidx.toNat + 1 ∧ s.scale.toNat ≤ s.vrep.toNat + 1 ∧ s.row.toNat + 1 < s.srcH.toNat
        ∧ afterEmit s = { s with bidx := 0#32, vrep := 0#16, row := s.row + 1, phase := .pack })
    ∨ (s.bps.toNat ≤ s.bidx.toNat + 1 ∧ s.scale.toNat ≤ s.vrep.toNat + 1 ∧ s.srcH.toNat ≤ s.row.toNat + 1
        ∧ afterEmit s = { s with bidx := 0#32, vrep := 0#16, row := 0#16, phase := .idle, done := true }) := by
  unfold afterEmit
  split
  · exact .inl ⟨by assumption, rfl⟩
  · split
    · exact .inr (.inl ⟨by omega, by assumption, rfl⟩)
    · split
      · exact .inr (.inr (.inl ⟨by omega, by omega, by assumption, rfl⟩))
      · exact .inr (.inr (.inr ⟨by omega, by omega, by omega, rfl⟩))

/-- The two ends of an INSERT's copy count (43 R135, second `if`). -/
theorem nextCopy_cases (s : State) :
    (s.hrep.toNat + 1 = s.scale.toNat ∧ nextCopy s = { s with pixv := false, hrep := 0#16, col := s.col + 1 })
    ∨ (s.hrep.toNat + 1 ≠ s.scale.toNat ∧ nextCopy s = { s with hrep := s.hrep + 1 }) := by
  unfold nextCopy
  split
  · exact .inl ⟨by assumption, rfl⟩
  · exact .inr ⟨by assumption, rfl⟩

/-- A finished byte is the assembled one, or a free one where it is tainted (93 U1). -/
theorem storeByte_cases (tainted : Bool) (v : Byte) (s : State) :
    (tainted = false ∧ storeByte tainted v s = { s with lb := memPut s.lb s.bidx.toNat v })
    ∨ (tainted = true ∧ storeByte tainted v s =
        { s with lb := memPut s.lb s.bidx.toNat (Config.freeByte s.draws), draws := s.draws + 1 }) := by
  cases tainted <;> simp [storeByte, lbStore]

/-- Nothing is tainted while pixels are truncated. -/
theorem taints_truncate {s : State} (h : s.oorMode = .truncate) : taints s = false := by simp [taints, h]

/-- Nor by a pixel of the palette. -/
theorem taints_inPalette {s : State} (h : s.pixreg.toNat < s.palLen.toNat) : taints s = false := by
  have : ¬ s.palLen.toNat ≤ s.pixreg.toNat := by omega
  simp [taints, this]

end Sys2Proof.Machine
end

