-- ==== Sys2Proof/Laws/PerInstr.lean ====
section
/-! SUPPORT. A law about every operation as syntax: its encoding bears the port and the fixed bits of its row in
spec/opcode_table.json. -/

namespace Sys2Proof.Laws.RowBits

/-- The fixed bits of an operation's row: on the operation's port, the word under `mask` is `match`. -/
def Bears (w : PortWord) (i : Instr) : Prop :=
  match i, w with
  | .regrd _ _, .reg b => b &&& 0x1000000000#37 = 0x0000000000#37
  | .regwr _ _, .reg b => b &&& 0x1000000000#37 = 0x1000000000#37
  | .nop, .reg b => b = 0x1000000000#37
  | .plan, .reg b => b = 0x1000000001#37
  | .rast, .reg b => b = 0x1000000002#37
  | .render, .reg b => b = 0x1000000003#37
  | .abort, .reg b => b = 0x1000000004#37
  | .pixpush p, .pix b => b = p
  | .bytepop p, .byte b => b = p
  | .fetch _, .seq v => v &&& 0b11110000#8 = 0b01000000#8
  | .insert1 _, .seq v => v &&& 0b11101111#8 = 0b01100001#8
  | .insert2 _, .seq v => v &&& 0b11101111#8 = 0b01100010#8
  | .insert4 _, .seq v => v &&& 0b11101111#8 = 0b01100100#8
  | .insert8 _, .seq v => v &&& 0b11101111#8 = 0b01101000#8
  | .eol _, .seq v => v &&& 0b11110000#8 = 0b01010000#8
  | .emit _ _ _, .seq v => v &&& 0b11000000#8 = 0b10000000#8
  | _, _ => False

/-- The encoding of `i` bears the fixed bits of `i`'s row. -/
def Statement (i : Instr) : Prop := Bears (encode i) i

/-- Bit 36 alone decides under the REG rows' mask. -/
theorem bundle_we (we : Bool) (idx : BitVec 4) (data : Word) :
    regBundle we idx data &&& 0x1000000000#37 = if we then 0x1000000000#37 else 0x0000000000#37 := by
  apply BitVec.eq_of_getLsbD_eq
  intro k hk
  have hmask : (0x1000000000#37).getLsbD k = decide (k = 36) := by
    revert hk; revert k; decide
  have hwe := regWe_bundle we idx data
  unfold regWe at hwe
  rw [BitVec.getLsbD_and, hmask]
  by_cases h : k = 36
  · subst h
    rw [hwe]
    cases we <;> simp
  · cases we <;> simp [h, hmask]

theorem regrd (idx : BitVec 4) (data : Word) : Statement (.regrd idx data) := bundle_we false idx data
theorem regwr (idx : BitVec 4) (data : Word) : Statement (.regwr idx data) := bundle_we true idx data
theorem nop : Statement .nop := by simp only [Statement, Bears, encode]; decide
theorem plan : Statement .plan := by simp only [Statement, Bears, encode]; decide
theorem rast : Statement .rast := by simp only [Statement, Bears, encode]; decide
theorem render : Statement .render := by simp only [Statement, Bears, encode]; decide
theorem abort : Statement .abort := by simp only [Statement, Bears, encode]; decide
theorem pixpush (p : Byte) : Statement (.pixpush p) := rfl
theorem bytepop (b : Byte) : Statement (.bytepop b) := rfl
theorem fetch (d : BitVec 4) : Statement (.fetch d) := by
  simp only [Statement, Bears, encode]; revert d; decide
theorem insert1 (e : Bool) : Statement (.insert1 e) := by
  simp only [Statement, Bears, encode]; revert e; decide
theorem insert2 (e : Bool) : Statement (.insert2 e) := by
  simp only [Statement, Bears, encode]; revert e; decide
theorem insert4 (e : Bool) : Statement (.insert4 e) := by
  simp only [Statement, Bears, encode]; revert e; decide
theorem insert8 (e : Bool) : Statement (.insert8 e) := by
  simp only [Statement, Bears, encode]; revert e; decide
theorem eol (d : BitVec 4) : Statement (.eol d) := by
  simp only [Statement, Bears, encode]; revert d; decide
theorem emit (p e : Bool) (d : BitVec 4) : Statement (.emit p e d) := by
  simp only [Statement, Bears, encode]; revert p e d; decide

end Sys2Proof.Laws.RowBits
end

