-- ==== Sys2Proof/Laws/Raster.lean ====
section
/-! SUPPORT. What the total rasterizer function reads of its pixels (log entry 24). -/

namespace Sys2Proof.Machine

/-- Source scanline `r < h` lies within the first `w * h` pixels. -/
theorem sourceRow_take (px : List Byte) {w h r : Nat} (hr : r < h) :
    sourceRow (px.take (w * h)) w r = sourceRow px w r := by
  have hle : r * w + w ≤ w * h := by
    calc r * w + w = w * (r + 1) := by ring
      _ ≤ w * h := Nat.mul_le_mul_left w hr
  unfold sourceRow
  rw [List.drop_take, List.take_take]
  congr 1
  omega

/-- A frame reads the first `w * h` pixels only. -/
theorem frame_take (px : List Byte) (w h s d : Nat) : frame (px.take (w * h)) w h s d = frame px w h s d := by
  unfold frame
  apply List.flatMap_congr
  intro r hr
  unfold frameLine
  rw [sourceRow_take px (List.mem_range.1 hr)]

/-- A slot past the scanline's last pixel packs as 0 (42 R110, last branch). -/
theorem slotTerm_past {d j i : Nat} {ex : List Byte} (h : ex.length ≤ j * ppb d + i) : slotTerm d ex j i = 0 := by
  simp [slotTerm, List.getElem?_eq_none h]

end Sys2Proof.Machine
end

