-- ==== Sys2Proof/Laws/Step.lean ====
section
/-! SUPPORT. What one step can be, said once. -/

namespace Sys2Proof.Machine

@[simp] theorem afterFetch_selector (s : State) : (afterFetch s).selector = s.selector := by
  unfold afterFetch; split <;> rfl

/-- From a step's next state back to what the turn was: an operation's execution, an idle block's turn, a reset, or
PIXDROP. -/
theorem step_next {s t : State} (h : step s = .next t) :
    (∃ i, turnInstr s = some i ∧ exec i (afterFetch s) = .next t)
    ∨ (∃ w, turnWord s = some w ∧ decode w = .error .seqIdle ∧ turnInstr s = none ∧ t = afterFetch s)
    ∨ (s.agenda.head? = some .reset ∧ turnInstr s = none ∧ t = hardReset (afterFetch s))
    ∨ (s.agenda.head? = some .pixdrop ∧ turnInstr s = none ∧ t = dropPixels (afterFetch s)) := by
  have run : ∀ (w : PortWord) (u : State), turnWord s = some w → runWord w u = .next t → u = afterFetch s →
      (∃ i, turnInstr s = some i ∧ exec i (afterFetch s) = .next t)
        ∨ (∃ w, turnWord s = some w ∧ decode w = .error .seqIdle ∧ turnInstr s = none ∧ t = afterFetch s) := by
    intro w u hw hr hu
    subst hu
    unfold runWord at hr
    unfold turnInstr
    rw [hw]
    split at hr
    · rename_i i hi
      exact .inl ⟨i, by simp [hi], hr⟩
    · rename_i hi
      cases hr
      exact .inr ⟨w, rfl, hi, by simp [hi], rfl⟩
    · cases hr
  unfold step turn at h
  split at h
  · rename_i ha
    have := run (.seq s.selector) s (by simp [turnWord, ha]) h (by simp [afterFetch, ha])
    exact this.elim .inl fun h => .inr (.inl h)
  · rename_i e rest ha
    cases e with
    | reg b =>
      have := run (.reg b) _ (by simp [turnWord, ha]) h (by simp [afterFetch, ha])
      exact this.elim .inl fun h => .inr (.inl h)
    | pix p =>
      have := run (.pix p) _ (by simp [turnWord, ha]) h (by simp [afterFetch, ha])
      exact this.elim .inl fun h => .inr (.inl h)
    | byte b =>
      have := run (.byte b) _ (by simp [turnWord, ha]) h (by simp [afterFetch, ha])
      exact this.elim .inl fun h => .inr (.inl h)
    | block r =>
      have := run (.seq s.selector) _ (by simp [turnWord, ha]) h (by simp [afterFetch, ha])
      exact this.elim .inl fun h => .inr (.inl h)
    | reset =>
      refine .inr (.inr (.inl ⟨by simp [ha], by simp [turnInstr, turnWord, ha], ?_⟩))
      simp only [runEvent] at h
      cases h
      simp [afterFetch, ha]
    | pixdrop =>
      refine .inr (.inr (.inr ⟨by simp [ha], by simp [turnInstr, turnWord, ha], ?_⟩))
      simp only [runEvent] at h
      cases h
      simp [afterFetch, ha]

/-- Taking the event off the agenda changes the agenda and the sink's answer only. -/
theorem afterFetch_same (s : State) : ∃ (ready : Bool) (rest : List Event),
    afterFetch s = { s with sinkReady := ready, agenda := rest } := by
  unfold afterFetch
  split
  · exact ⟨s.sinkReady, s.agenda, rfl⟩
  · exact ⟨_, _, rfl⟩
  · exact ⟨s.sinkReady, _, rfl⟩

/-- A placed selector of a micro-step is the selector the next turn decodes. -/
theorem arrangeSelector_selector (v : BitVec 8) (s : State)
    (h : v.extractLsb' 6 2 = 1#2 ∨ v.extractLsb' 6 2 = 2#2) : (arrangeSelector v s).selector = v := by
  have hphase : (arrangeSelector v s).phase.code = v.extractLsb' 6 2 := by
    rcases h with h | h <;> simp [arrangeSelector, h, Phase.code]
  have heolc : (arrangeSelector v s).eolc = v.getLsbD 4 := by
    unfold State.eolc arrangeSelector
    cases v.getLsbD 4
    · by_cases hc : s.col.toNat < s.srcW.toNat
      · have : s.col ≠ s.srcW := fun he => by rw [he] at hc; omega
        simp [hc, this]
      · simp [hc]
    · simp
  have word : ∀ v : BitVec 8,
      seqWord (v.extractLsb' 6 2) (v.getLsbD 5) (v.getLsbD 4) (v.extractLsb' 0 4) = v := by decide
  unfold State.selector
  rw [hphase, heolc]
  exact word v

end Sys2Proof.Machine
end

