-- ==== Sys2Proof/Machine/Script.lean ====
section
/-! DEFINITION. The script notation and its pseudo-operations (spec/30_encoding.md R77, R78): a line as the events of the
host it stands for. Where the block's own turns fall between them is the environment's choice (R77). -/

namespace Sys2Proof.Machine

/-- One line of a script (30 R77, R78). -/
inductive ScriptLine where
  /-- `WR <reg>, <value>`. -/
  | wr (idx : BitVec 4) (value : Word)
  /-- `RD <reg>`. -/
  | rd (idx : BitVec 4)
  /-- `CMD <mnemonic>`, by its code. -/
  | cmd (code : Word)
  /-- `PUSH <b0>, <b1>, ...`. -/
  | push (bytes : List Byte)
  /-- `POP <n>`. -/
  | pop (n : Nat)
  /-- `CFG <p>, <w>, <h>, <s>`. -/
  | cfg (p w h s : Word)
  /-- `WAIT`, with the number of polls it comes to take. -/
  | wait (polls : Nat)
  /-- `DRAIN`, with the number of bytes `OUT` holds at that moment. -/
  | drain (held : Nat)
  /-- `FRAME <b0>, <b1>, ...`, with `BPS * OUT_H` and the polls of its WAIT. -/
  | frame (bytes : List Byte) (size polls : Nat)
  deriving DecidableEq, Repr

/-- REGWR as an event. -/
def writeEvent (idx : BitVec 4) (value : Word) : Event := .reg (regBundle true idx value)

/-- REGRD as an event: bundle `{0, idx, 0}`. -/
def readEvent (idx : BitVec 4) : Event := .reg (regBundle false idx 0#32)

/-- `n` BYTEPOPs. -/
def popEvents (n : Nat) : List Event := List.replicate n (.byte 0#8)

/-- A line's host events (30 R77, R78). -/
def ScriptLine.events : ScriptLine → List Event
  | .wr idx v => [writeEvent idx v]
  | .rd idx => [readEvent idx]
  | .cmd code => [writeEvent 0#4 code]
  | .push bytes => bytes.map Event.pix
  | .pop n => popEvents n
  | .cfg p w h s => [writeEvent 2#4 p, writeEvent 3#4 w, writeEvent 4#4 h, writeEvent 5#4 s]
  | .wait polls => List.replicate polls (readEvent 1#4)
  | .drain held => popEvents held
  | .frame bytes size polls =>
    writeEvent 0#4 3#32 :: bytes.map Event.pix ++ popEvents size ++ List.replicate polls (readEvent 1#4)

end Sys2Proof.Machine
end

