-- ==== Sys2Proof/Tests/Slice0.lean ====
section
/-! SUPPORT. Small tests, each against a vector printed in spec/95_test_vectors.md (section named in the docstring), and for
each obligation with hypotheses a witness that meets them. -/

namespace Sys2Proof.Tests

open Sys2Proof Sys2Proof.Machine

/-! ### Helpers -/

/-- What a field of the next state is, if there is one. -/
def after {α : Type} (f : State → α) (o : Host.Outcome State Fault Refusal) : Option α := (nextState? o).map f

/-- A next state exists where `nextState?` finds one. -/
theorem next_of_some {o : Host.Outcome State Fault Refusal} (h : (nextState? o).isSome = true) : ∃ t, o = .next t := by
  cases o with
  | next t => exact ⟨t, rfl⟩
  | fault r => simp [nextState?] at h
  | refused r => simp [nextState?] at h

/-- A configuration with nothing planned. -/
def configured (p w h c : Nat) : State :=
  { State.reset with
    palLen := BitVec.ofNat 16 p, srcW := BitVec.ofNat 16 w, srcH := BitVec.ofNat 16 h, scale := BitVec.ofNat 16 c }

/-- The same with a plan in the registers. -/
def planned (p w h c d b : Nat) : State :=
  { configured p w h c with
    depth := BitVec.ofNat 4 d, outW := BitVec.ofNat 32 (w * c), outH := BitVec.ofNat 32 (h * c),
    bps := BitVec.ofNat 32 b, planValid := true }

/-- `STATUS` after an operation. -/
def statusAfter (i : Instr) (s : State) : Option Nat := after (fun t => t.statusWord.toNat) (exec i s)

/-- The plan and `STATUS` after an operation. -/
def planAfter (i : Instr) (s : State) : Option (List Nat) :=
  after (fun t => [t.depth.toNat, t.outW.toNat, t.outH.toNat, t.bps.toNat, t.statusWord.toNat]) (exec i s)

/-- Start of trace B (95 section 6): depth 2, width 3, one scanline, scale 2. -/
def fetchB : State := { planned 3 3 1 2 2 2 with phase := .pack, pixIn := [1#8, 2#8, 0#8] }

/-- Trace B after its step 1. -/
def insertB : State := { fetchB with pixIn := [2#8, 0#8], pixreg := 1#8, pixv := true, taken := [1#8] }

/-- Trace B after its step 9. -/
def eolB : State :=
  { fetchB with pixIn := [], col := 3#16, slot := 2#3, bidx := 1#32, lb := [(0, 0x5A#8)], taken := [1#8, 2#8, 0#8] }

/-- Trace B after its step 10. -/
def replayB : State :=
  { fetchB with pixIn := [], phase := .replay, lb := [(0, 0x5A#8), (1, 0x00#8)], taken := [1#8, 2#8, 0#8] }

/-- Trace B after its step 13. -/
def lastB : State :=
  { replayB with vrep := 1#16, bidx := 1#32, emitted := [0x5A#8, 0x00#8, 0x5A#8], out := [0x5A#8, 0x00#8, 0x5A#8] }

/-- A PACK state at depth `d` with a pixel held, width `w`, scale `c`. -/
def inserting (p w c d b : Nat) (pixel : Byte) : State :=
  { planned p w 1 c d b with phase := .pack, pixv := true, pixreg := pixel, taken := [pixel] }

/-! ### Well-formedness -/

theorem test_regwr_spelling_of_nop_refused : Instr.wellFormed (.regwr 0#4 0#32) = false := by decide
theorem test_regwr_spelling_of_plan_refused : Instr.wellFormed (.regwr 0#4 1#32) = false := by decide
theorem test_regwr_spelling_of_rast_refused : Instr.wellFormed (.regwr 0#4 2#32) = false := by decide
theorem test_regwr_spelling_of_render_refused : Instr.wellFormed (.regwr 0#4 3#32) = false := by decide
theorem test_regwr_spelling_of_abort_refused : Instr.wellFormed (.regwr 0#4 4#32) = false := by decide
theorem test_regwr_reserved_word_wellFormed :
    Instr.WellFormed (.regwr 0#4 5#32) ∧ Instr.WellFormed (.regwr 1#4 0#32) ∧ Instr.WellFormed (.regrd 0#4 0#32) := by
  decide

/-! ### Decoding, words from 95 section 2.1 and section 6 and 30 R60 to R75 -/

/-- 95 section 2.1. -/
theorem test_decode_reads :
    decode (.reg 0x0000000000#37) = .ok (.regrd 0#4 0#32) ∧ decode (.reg 0x0900000000#37) = .ok (.regrd 9#4 0#32)
      ∧ decode (.reg 0x0F00000000#37) = .ok (.regrd 15#4 0#32)
      ∧ decode (.reg 0x01DEADBEEF#37) = .ok (.regrd 1#4 0xDEADBEEF#32) := by decide

/-- 95 section 2.1. -/
theorem test_decode_writes :
    decode (.reg 0x1200000101#37) = .ok (.regwr 2#4 257#32) ∧ decode (.reg 0x130000002D#37) = .ok (.regwr 3#4 45#32)
      ∧ decode (.reg 0x1400000008#37) = .ok (.regwr 4#4 8#32)
      ∧ decode (.reg 0x150000FFFF#37) = .ok (.regwr 5#4 65535#32)
      ∧ decode (.reg 0x1600000008#37) = .ok (.regwr 6#4 8#32) ∧ decode (.reg 0x1100000000#37) = .ok (.regwr 1#4 0#32) := by
  decide

/-- 95 section 2.1. -/
theorem test_decode_commands :
    decode (.reg 0x1000000000#37) = .ok .nop ∧ decode (.reg 0x1000000001#37) = .ok .plan
      ∧ decode (.reg 0x1000000002#37) = .ok .rast ∧ decode (.reg 0x1000000003#37) = .ok .render
      ∧ decode (.reg 0x1000000004#37) = .ok .abort ∧ decode (.reg 0x1000000005#37) = .ok (.regwr 0#4 5#32)
      ∧ decode (.reg 0x1000000101#37) = .ok (.regwr 0#4 257#32) := by decide

/-- 30 R74, 40 R87. -/
theorem test_decode_streams :
    decode (.pix 0b00001010#8) = .ok (.pixpush 10#8) ∧ decode (.byte 0b01000000#8) = .ok (.bytepop 0x40#8) := by decide

/-- 95 section 6, the selectors of traces A to D. -/
theorem test_decode_microSteps :
    decode (.seq 0b01000001#8) = .ok (.fetch 1#4) ∧ decode (.seq 0b01100001#8) = .ok (.insert1 false)
      ∧ decode (.seq 0b01100010#8) = .ok (.insert2 false) ∧ decode (.seq 0b01100100#8) = .ok (.insert4 false)
      ∧ decode (.seq 0b01101000#8) = .ok (.insert8 false) ∧ decode (.seq 0b01010001#8) = .ok (.eol 1#4)
      ∧ decode (.seq 0b01011000#8) = .ok (.eol 8#4) ∧ decode (.seq 0b10001000#8) = .ok (.emit false false 8#4) := by
  decide

/-- 30 R75: the bits that are not looked at. -/
theorem test_decode_unusedBits :
    decode (.seq 0b01110001#8) = .ok (.insert1 true) ∧ decode (.seq 0b10110100#8) = .ok (.emit true true 4#4)
      ∧ decode (.seq 0b01001111#8) = .ok (.fetch 15#4) := by decide

/-- 30 R63, R75: what is no operation. -/
theorem test_decode_rejects :
    decode (.seq 0b00000000#8) = .error .seqIdle ∧ decode (.seq 0b00111111#8) = .error .seqIdle
      ∧ decode (.seq 0b11000000#8) = .error .seqPhaseThree ∧ decode (.seq 0b01100000#8) = .error .seqDepth
      ∧ decode (.seq 0b01100011#8) = .error .seqDepth ∧ decodeCmd 5#32 = .error .reservedCommand
      ∧ decodeCmd 0xFFFFFFFF#32 = .error .reservedCommand := by decide

/-- One word of each row of spec/opcode_table.json that its width and bits tell apart. -/
theorem test_tableWords :
    decodeTableWord 40 0x0100000000 = some (.regrd 1#4 0#32) ∧ decodeTableWord 40 0x1200000003 = some (.regwr 2#4 3#32)
      ∧ decodeTableWord 32 0 = some .nop ∧ decodeTableWord 32 1 = some .plan ∧ decodeTableWord 32 2 = some .rast
      ∧ decodeTableWord 32 3 = some .render ∧ decodeTableWord 32 4 = some .abort ∧ decodeTableWord 32 5 = none
      ∧ decodeTableWord 8 0b00000000 = some (.pixpush 0#8) ∧ decodeTableWord 8 0b11111111 = some (.bytepop 0xFF#8) := by
  decide

theorem test_tableWords_sequencer :
    decodeTableWord 8 0b01000000 = some (.fetch 0#4) ∧ decodeTableWord 8 0b01100001 = some (.insert1 false)
      ∧ decodeTableWord 8 0b01100010 = some (.insert2 false) ∧ decodeTableWord 8 0b01100100 = some (.insert4 false)
      ∧ decodeTableWord 8 0b01101000 = some (.insert8 false) ∧ decodeTableWord 8 0b01010000 = some (.eol 0#4)
      ∧ decodeTableWord 8 0b10000000 = some (.emit false false 0#4) := by decide

/-! ### A placed word is what the next step runs -/

theorem test_placed_host :
    after State.replies (step (State.reset.withFetchWord 40 0x0200000000)) = some [0#32]
      ∧ after State.palLen (step (State.reset.withFetchWord 40 0x1200000003)) = some 3#16
      ∧ after State.err (step (State.reset.withFetchWord 32 2)) = some .noPlan
      ∧ after State.pixIn (step (State.reset.withFetchWord 8 0x0A)) = some [10#8]
      ∧ after State.received (step (State.reset.withFetchWord 8 0xF0)) = some [0xF0#8] := by decide

theorem test_placed_microStep :
    after State.pixv (step (State.reset.withFetchWord 8 0b01000010)) = some true
      ∧ after State.slot (step (State.reset.withFetchWord 8 0b01100100)) = some 1#3
      ∧ after State.bidx (step (State.reset.withFetchWord 8 0b01101000)) = some 1#32
      ∧ after State.phase (step (State.reset.withFetchWord 8 0b01010000)) = some .replay
      ∧ after (fun t => t.out.length) (step (State.reset.withFetchWord 8 0b10000000)) = some 1 := by decide

/-! ### The register port, 95 section 2.2 -/

theorem test_regrd_reset : after State.replies (exec (.regrd 9#4 0#32) State.reset) = some [0#32] := by decide

/-- P1, line 10: `RD OUT_W`; and `STATUS` of a busy block. -/
theorem test_regrd_values :
    after State.replies (exec (.regrd 7#4 0#32) (planned 2 2 1 1 1 1)) = some [2#32]
      ∧ after State.replies (exec (.regrd 1#4 0xDEADBEEF#32) fetchB) = some [3#32] := by decide

/-- `WR SRC_W, 0x00010003` stores 3; `WR SRC_W, 7` after a frame keeps `DONE`. -/
theorem test_regwr_idle :
    after State.srcW (exec (.regwr 3#4 0x00010003#32) State.reset) = some 3#16
      ∧ planAfter (.regwr 3#4 7#32) { planned 4 3 2 2 2 2 with done := true } = some [0, 0, 0, 0, 4] := by decide

/-- A write while busy is dropped, a write to `DEPTH` is ignored without `OVR`. -/
theorem test_regwr_busy :
    after (fun t => (t.scale, t.statusWord)) (exec (.regwr 5#4 7#32) fetchB) = some (2#16, 0xB#32)
      ∧ statusAfter (.regwr 6#4 8#32) fetchB = some 3 := by decide

/-! ### Commands, 95 section 2.3, section 3 and section 5 -/

/-- 95 section 2.3: NOP clears nothing; a reserved word is `BadCmd` and keeps the plan. -/
theorem test_nop_clears_nothing :
    statusAfter .nop { planned 2 2 1 1 1 1 with err := .badCmd } = some 0x602
      ∧ statusAfter (.regwr 0#4 0x101#32) (planned 2 2 1 1 1 1) = some 0x602 := by decide

/-- 95 section 3: rows for the four depths. -/
theorem test_plan_values :
    planAfter .plan (configured 2 9 1 1) = some [1, 9, 1, 2, 2] ∧ planAfter .plan (configured 4 3 2 2) = some [2, 6, 4, 2, 2]
      ∧ planAfter .plan (configured 3 45 8 16) = some [2, 720, 128, 180, 2]
      ∧ planAfter .plan (configured 16 3 1 2) = some [4, 6, 2, 3, 2]
      ∧ planAfter .plan (configured 256 65535 65535 65535) = some [8, 4294836225, 4294836225, 4294836225, 2] := by decide

/-- 95 section 3: the error rows, in their order of priority, with `LB_BYTES = 1` in the last two. -/
theorem test_plan_errors :
    planAfter .plan (configured 65535 0 0 0) = some [0, 0, 0, 0, 0x100]
      ∧ planAfter .plan (configured 1 0 0 0) = some [0, 0, 0, 0, 0x200]
      ∧ planAfter .plan (configured 2 1 1 0) = some [0, 0, 0, 0, 0x300]
      ∧ planAfter .plan { configured 2 9 1 1 with lbBytes := 1 } = some [0, 0, 0, 0, 0x400]
      ∧ planAfter .plan { configured 2 8 1 1 with lbBytes := 1 } = some [1, 8, 1, 1, 2] := by decide

/-- 95 section 5: RAST with and without a plan; `PIXREG` stays stale. -/
theorem test_rast :
    after (fun t => (t.phase, t.pixreg, t.statusWord)) (exec .rast { planned 2 2 1 1 1 1 with pixreg := 9#8 })
        = some (.pack, 9#8, 3#32)
      ∧ statusAfter .rast State.reset = some 0x500 := by decide

/-- P5: an empty frame is done in the step of its command; 95 section 2.3: RENDER fails as PLAN does. -/
theorem test_render :
    planAfter .render (configured 2 4 0 3) = some [1, 12, 0, 2, 6] ∧ statusAfter .render State.reset = some 0x200 := by
  decide

/-- P4, line 18: ABORT keeps the plan and clears `OVR` and `PIXREG`. -/
theorem test_abort :
    after (fun t => (t.phase, t.pixreg, t.bidx, t.statusWord)) (exec .abort { eolB with ovr := true, pixreg := 2#8 })
      = some (.idle, 0#8, 0#32, 2#32) := by decide

/-! ### Streams, 95 section 2.4 -/

theorem test_pixpush : after State.pixIn (exec (.pixpush 9#8) fetchB) = some [1#8, 2#8, 0#8, 9#8] := by decide

theorem test_bytepop :
    after (fun t => (t.received, t.out)) (exec (.bytepop 0#8) { State.reset with out := [0x40#8] }) = some ([0x40#8], [])
      ∧ exec (.bytepop 0#8) State.reset = .next State.reset := by
  refine ⟨by decide, rfl⟩

/-! ### Micro-steps, 95 section 6 -/

/-- Trace B, step 1, and the starved FETCH. -/
theorem test_fetch :
    after (fun t => (t.pixreg, t.pixv, t.pixIn)) (exec (.fetch 2#4) fetchB) = some (1#8, true, [2#8, 0#8])
      ∧ after State.pixv (exec (.fetch 2#4) { fetchB with pixIn := [] }) = some false := by decide

/-- 95 section 6, isolated steps: `ACC = FE`, slot 7; an out-of-range pixel. -/
theorem test_insert1 :
    after (fun t => (t.lb, t.bidx, t.slot, t.col, t.pixv))
        (exec (.insert1 false) { inserting 2 8 1 1 1 0x01#8 with acc := 0xFE#8, slot := 7#3, col := 7#16 })
        = some ([(0, 0xFF#8)], 1#32, 0#3, 8#16, false)
      ∧ after (fun t => (t.acc, t.slot)) (exec (.insert1 false) (inserting 2 8 1 1 1 0x03#8)) = some (0x80#8, 1#3) := by
  decide

theorem test_insert2 :
    after (fun t => (t.acc, t.slot)) (exec (.insert2 false) { inserting 4 4 1 2 1 0x02#8 with acc := 0x40#8, slot := 1#3 })
        = some (0x60#8, 2#3)
      ∧ after (fun t => (t.acc, t.slot)) (exec (.insert2 false) (inserting 4 4 1 2 1 0xFF#8)) = some (0xC0#8, 1#3) := by
  decide

theorem test_insert4 :
    after (fun t => (t.lb, t.acc, t.slot, t.bidx))
        (exec (.insert4 false) { inserting 16 2 1 4 1 0x05#8 with acc := 0xA0#8, slot := 1#3 })
        = some ([(0, 0xA5#8)], 0#8, 0#3, 1#32)
      ∧ after (fun t => (t.acc, t.slot)) (exec (.insert4 false) (inserting 16 2 1 4 1 0x1F#8)) = some (0xF0#8, 1#3) := by
  decide

/-- `LB[1] = C8`; and the copy count of a scale 3. -/
theorem test_insert8 :
    after (fun t => (t.lb, t.bidx)) (exec (.insert8 false) { inserting 200 2 1 8 2 0xC8#8 with bidx := 1#32 })
        = some ([(1, 0xC8#8)], 2#32)
      ∧ after (fun t => (t.hrep, t.pixv, t.col))
          (exec (.insert8 false) { inserting 200 9 3 8 27 0xC8#8 with hrep := 2#16, col := 4#16 })
        = some (0#16, false, 5#16) := by decide

/-- `LB[0] = 60`; and an EOL whose last byte an INSERT has written. -/
theorem test_eol :
    after (fun t => (t.lb, t.acc, t.slot, t.col, t.phase))
        (exec (.eol 2#4) { fetchB with acc := 0x60#8, slot := 3#3, col := 3#16 })
        = some ([(0, 0x60#8)], 0#8, 0#3, 0#16, .replay)
      ∧ after (fun t => (t.lb, t.bidx, t.col, t.phase))
          (exec (.eol 1#4) { planned 2 8 1 1 1 1 with phase := .pack, col := 8#16, bidx := 1#32, lb := [(0, 0xF1#8)] })
        = some ([(0, 0xF1#8)], 0#32, 0#16, .replay) := by decide

/-- `LB = [5A, F0]`, `BPS = 2`, scale 2, two scanlines: the four places EMIT can be at. -/
def emitting (b v r : Nat) : State :=
  { planned 4 3 2 2 2 2 with
    phase := .replay, lb := [(0, 0x5A#8), (1, 0xF0#8)], bidx := BitVec.ofNat 32 b, vrep := BitVec.ofNat 16 v,
    row := BitVec.ofNat 16 r }

theorem test_emit :
    after (fun t => (t.out, t.bidx, t.vrep)) (exec (.emit false false 2#4) (emitting 0 0 0)) = some ([0x5A#8], 1#32, 0#16)
      ∧ after (fun t => (t.out, t.bidx, t.vrep)) (exec (.emit false false 2#4) (emitting 1 0 0))
        = some ([0xF0#8], 0#32, 1#16) := by decide

theorem test_emit_scanline_and_frame_end :
    after (fun t => (t.bidx, t.vrep, t.row, t.phase, t.done)) (exec (.emit false false 2#4) (emitting 1 1 0))
        = some (0#32, 0#16, 1#16, .pack, false)
      ∧ after (fun t => (t.bidx, t.vrep, t.row, t.phase, t.done)) (exec (.emit false false 2#4) (emitting 1 1 1))
        = some (0#32, 0#16, 0#16, .idle, true)
      ∧ after State.out (exec (.emit false false 2#4) { emitting 0 0 0 with sinkReady := false }) = some [] := by decide

/-! ### The step: selectors of trace B chosen by the state, and the environment's turns -/

theorem test_selectors :
    fetchB.selector = 0b01000010#8 ∧ insertB.selector = 0b01100010#8 ∧ eolB.selector = 0b01010010#8
      ∧ replayB.selector = 0b10000010#8 ∧ decode (.seq State.reset.selector) = .error .seqIdle := by decide

/-- Trace B, steps 2, 10 and 14. -/
theorem test_block_turns :
    after (fun t => (t.acc, t.slot, t.hrep)) (step insertB) = some (0x40#8, 1#3, 1#16)
      ∧ after (fun t => (t.lb, t.phase)) (step eolB) = some ([(0, 0x5A#8), (1, 0x00#8)], .replay)
      ∧ after (fun t => (t.out, t.statusWord)) (step lastB)
        = some ([0x5A#8, 0x00#8, 0x5A#8, 0x00#8], 6#32) := by decide

/-- 70 R190, 40 R86. -/
theorem test_environment_turns :
    after (fun t => (t.phase, t.lb, t.palLen)) (step { eolB with agenda := [.reset] }) = some (.idle, [(0, 0x5A#8)], 0#16)
      ∧ after State.pixIn (step { fetchB with agenda := [.pixdrop] }) = some [] := by decide

/-! ### The rasterizer as a function, 95 section 4 -/

theorem test_frame_depths_1_2 :
    frame [0#8, 1#8] 2 1 1 1 = [0x40#8]
      ∧ frame [1#8, 0#8, 1#8, 0#8, 1#8, 1#8] 3 2 3 1
        = [0xE3#8, 0x80#8, 0xE3#8, 0x80#8, 0xE3#8, 0x80#8, 0x1F#8, 0x80#8, 0x1F#8, 0x80#8, 0x1F#8, 0x80#8]
      ∧ frame [1#8, 2#8, 3#8, 3#8, 0#8, 1#8] 3 2 2 2
        = [0x5A#8, 0xF0#8, 0x5A#8, 0xF0#8, 0xF0#8, 0x50#8, 0xF0#8, 0x50#8] := by decide

theorem test_frame_depths_4_8 :
    frame [10#8, 5#8, 15#8] 3 1 1 4 = [0xA5#8, 0xF0#8] ∧ frame [0#8, 200#8] 2 1 1 8 = [0x00#8, 0xC8#8]
      ∧ frame [0x1F#8, 0xF0#8] 2 1 1 4 = [0xF0#8] ∧ frame [7#8, 4#8, 0xFF#8] 3 1 1 2 = [0xCC#8] := by decide

/-- 95 section 5, the numbers of micro-steps. -/
theorem test_frameSteps :
    frameSteps 2 1 1 1 = 6 ∧ frameSteps 3 1 2 2 = 14 ∧ frameSteps 3 2 2 2 = 28 ∧ frameSteps 45 8 16 2 = 29168 := by decide

/-! ### Companion functions, 95 section 7; scripts, 95 section 8 -/

theorem test_palette_chunks :
    plte [.rgba 1#8 2#8 3#8 0#8, .rgb 9#8 9#8 9#8] = [1#8, 2#8, 3#8, 9#8, 9#8, 9#8]
      ∧ trns [.rgb 0#8 0#8 0#8, .rgba 255#8 0#8 0#8 128#8] = some [0xFF#8, 0x80#8]
      ∧ trns [.rgb 0#8 0#8 0#8, .rgb 255#8 0#8 0#8] = none
      ∧ trnsLazy [.rgb 1#8 1#8 1#8, .rgb 2#8 2#8 2#8, .rgba 3#8 3#8 3#8 7#8] = some [0xFF#8, 0xFF#8, 0x07#8] := by decide

theorem test_script_lines :
    (ScriptLine.cfg 2#32 2#32 1#32 1#32).events
        = [.reg 0x1200000002#37, .reg 0x1300000002#37, .reg 0x1400000001#37, .reg 0x1500000001#37]
      ∧ (ScriptLine.cmd 3#32).events = [.reg 0x1000000003#37] ∧ (ScriptLine.rd 1#4).events = [.reg 0x0100000000#37]
      ∧ (ScriptLine.push [1#8, 0#8]).events = [.pix 1#8, .pix 0#8] := by decide

/-! ### Witnesses: states that meet the invariant -/

theorem witness_inv_idle : Inv (planned 3 3 1 2 2 2) := by
  refine ⟨by decide, by decide, by decide, by decide, ?_, ?_, ?_⟩ <;> decide

theorem witness_inv_fetch : Inv fetchB := by
  refine ⟨by decide, by decide, by decide, by decide, by decide, fun _ => ?_, by decide⟩
  decide

theorem witness_inv_insert : Inv insertB := by
  refine ⟨by decide, by decide, by decide, by decide, by decide, fun _ => ?_, by decide⟩
  decide

theorem witness_inv_eol : Inv eolB := by
  refine ⟨by decide, by decide, by decide, by decide, by decide, fun _ => ?_, by decide⟩
  decide

theorem witness_inv_replay : Inv replayB := by
  refine ⟨by decide, by decide, by decide, by decide, by decide, by decide, fun _ => ?_⟩
  decide

theorem witness_inv_last : Inv lastB := by
  refine ⟨by decide, by decide, by decide, by decide, by decide, by decide, fun _ => ?_⟩
  decide

/-- Depth 8 with a pixel held (trace D after its step 1). -/
theorem witness_inv_insert8 : Inv (inserting 200 1 2 8 2 0xC8#8) := by
  refine ⟨by decide, by decide, by decide, by decide, by decide, fun _ => ?_, by decide⟩
  decide

/-! ### Witnesses: hypotheses of the obligations, clause by clause -/

/-- `ResetClearsRegistersOnly`, `ResetIsAbortAndCleared`, `PixpushAppends` (last clause). -/
theorem witness_reset_turn : { eolB with agenda := [.reset, .pixdrop] }.agenda = .reset :: [.pixdrop] := rfl

/-- `PixpushAppends`, PIXDROP. -/
theorem witness_pixdrop_turn : { fetchB with agenda := [.pixdrop] }.agenda = .pixdrop :: [] := rfl

/-- `StepRunsTheDecodedOperation`: a host turn, a block turn of the agenda, a block turn of an empty agenda. -/
theorem witness_decoded_turns :
    (turnWord { State.reset with agenda := [.reg 0x1000000002#37] } = some (.reg 0x1000000002#37)
        ∧ decode (.reg 0x1000000002#37) = .ok .rast)
      ∧ (turnWord { replayB with agenda := [.block false] } = some (.seq 0b10000010#8)
        ∧ decode (.seq 0b10000010#8) = .ok (.emit false false 2#4))
      ∧ turnWord fetchB = some (.seq 0b01000010#8) ∧ decode (.seq 0b01000010#8) = .ok (.fetch 2#4) := by decide

/-- `IdleBlockTakesNoStep`, both ways a block's turn comes about. -/
theorem witness_idle_turns :
    (State.reset.phase = .idle ∧ State.reset.agenda = [])
      ∧ { State.reset with agenda := [.block false] }.phase = .idle
      ∧ ∃ r rest, { State.reset with agenda := [.block false] }.agenda = .block r :: rest :=
  ⟨⟨rfl, rfl⟩, rfl, _, _, rfl⟩

/-- `SelectorNamesTheSelectedStep`, one state for each disjunct. -/
theorem witness_selected_steps :
    (Inv fetchB ∧ fetchB.phase ≠ .idle) ∧ (Inv insertB ∧ insertB.phase ≠ .idle) ∧ (Inv eolB ∧ eolB.phase ≠ .idle)
      ∧ (Inv replayB ∧ replayB.phase ≠ .idle) :=
  ⟨⟨witness_inv_fetch, by decide⟩, ⟨witness_inv_insert, by decide⟩, ⟨witness_inv_eol, by decide⟩,
    ⟨witness_inv_replay, by decide⟩⟩

/-- `DecodeOfEncodeIsTheOperation`, `EncodeOfDecodeIsTheWord`. -/
theorem witness_wellFormed_and_decoded :
    Instr.WellFormed (.regwr 0#4 5#32) ∧ Instr.WellFormed (.emit true true 15#4)
      ∧ decode (.seq 0b01110001#8) = .ok (.insert1 true) := by decide

/-- `ReservedCommandWords`: the first and the last reserved word, idle and busy. -/
theorem witness_reserved_words :
    5 ≤ (5#32 : Word).toNat ∧ 5 ≤ (0xFFFFFFFF#32 : Word).toNat ∧ State.reset.busy = false ∧ fetchB.busy = true := by
  decide

/-- `ConfigurationWrite` at both ends of its range, `OtherWritesAreIgnored` at 1, 6 and 15: no index falls under both. -/
theorem witness_write_indices :
    (2 ≤ (2#4).toNat ∧ (2#4).toNat ≤ 5) ∧ (2 ≤ (5#4).toNat ∧ (5#4).toNat ≤ 5)
      ∧ ((1#4 = 1#4 ∨ 6 ≤ (1#4).toNat)) ∧ 6 ≤ (6#4).toNat ∧ 6 ≤ (15#4).toNat
      ∧ ∀ idx : BitVec 4, ¬ ((2 ≤ idx.toNat ∧ idx.toNat ≤ 5) ∧ (idx = 1#4 ∨ 6 ≤ idx.toNat)) := by decide

/-- `RegisterZeroIssuesCommands`, the first and last command word. -/
theorem witness_command_words : decodeCmd 0#32 = .ok .nop ∧ decodeCmd 4#32 = .ok .abort := by decide

/-- `BusyDropsCommands`, the busy clauses of `PlanCommand`, `RastCommand` and `RenderCommand`;
`BusyKeepsConfigurationAndPlan`: a micro-step, and a reset. -/
theorem witness_busy :
    (fetchB.busy = true ∧ ∃ t, step fetchB = .next t)
      ∧ { replayB with agenda := [.reset] }.busy = true ∧ ∃ t, step { replayB with agenda := [.reset] } = .next t :=
  ⟨⟨by decide, next_of_some (by decide)⟩, by decide, next_of_some (by decide)⟩

/-- `DepthIsTheSmallest`, each clause at the ends of its range. -/
theorem witness_depths :
    depthOf 0 = 1 ∧ depthOf 2 = 1 ∧ depthOf 3 = 2 ∧ depthOf 4 = 2 ∧ depthOf 5 = 4 ∧ depthOf 16 = 4 ∧ depthOf 17 = 8
      ∧ depthOf 256 = 8 ∧ IsDepth 8 ∧ 256 ≤ 2 ^ 8 ∧ IsDepth 1 ∧ 2 ≤ 2 ^ 1 := by decide

/-- `PlanCommand` and `RenderCommand`: an idle state for each branch. -/
theorem witness_plan_branches :
    ((configured 257 1 1 1).busy = false ∧ 256 < (configured 257 1 1 1).palLen.toNat)
      ∧ ((configured 1 1 1 1).busy = false ∧ (configured 1 1 1 1).palLen.toNat < 2)
      ∧ ((configured 2 0 1 1).busy = false ∧ (configured 2 0 1 1).srcW = 0#16)
      ∧ ((configured 2 1 1 0).busy = false ∧ (configured 2 1 1 0).scale = 0#16)
      ∧ ({ configured 2 9 1 1 with lbBytes := 1 }.busy = false
          ∧ { configured 2 9 1 1 with lbBytes := 1 }.lbBytes < (9 * 1 * depthOf 2 + 7) / 8)
      ∧ (configured 2 9 0 1).busy = false ∧ (configured 2 9 0 1).srcH = 0#16 := by decide

/-- `RenderIsPlanThenRast`, `AcceptedCommandsForgetTheFlags`: PLAN succeeds here and fails there. -/
theorem witness_plan_then_rast :
    (configured 2 9 1 1).busy = false ∧ after State.err (exec .plan (configured 2 9 1 1)) = some .noError
      ∧ State.reset.busy = false ∧ after State.err (exec .plan State.reset) = some .paletteTooSmall := by decide

/-- `RastCommand`: an idle state for each of its three branches. -/
theorem witness_rast_branches :
    (State.reset.busy = false ∧ State.reset.planValid = false)
      ∧ ((planned 2 4 0 3 1 2).busy = false ∧ (planned 2 4 0 3 1 2).planValid = true ∧ (planned 2 4 0 3 1 2).outH = 0#32)
      ∧ (planned 2 2 1 1 1 1).busy = false ∧ (planned 2 2 1 1 1 1).planValid = true ∧ (planned 2 2 1 1 1 1).outH ≠ 0#32 := by
  decide

/-- `PlanRegisterProperties`, `PlanInvariantIsKept`: plans at the ends of the four depth ranges. -/
theorem witness_plans :
    (PlanInv (planned 2 9 1 1 1 2) ∧ (planned 2 9 1 1 1 2).planValid = true) ∧ PlanInv (planned 3 3 1 1 2 1)
      ∧ PlanInv (planned 4 5 1 1 2 2) ∧ PlanInv (planned 5 3 1 1 4 2) ∧ PlanInv (planned 16 3 1 2 4 3)
      ∧ PlanInv (planned 17 2 1 1 8 2) ∧ PlanInv (planned 256 2 2 2 8 4) := by
  refine ⟨⟨?_, ?_⟩, ?_, ?_, ?_, ?_, ?_, ?_⟩ <;> decide

theorem witness_plan_step :
    PlanInv (planned 2 9 1 1 1 2) ∧ ∃ t, step { planned 2 9 1 1 1 2 with agenda := [.reg 0x1500000003#37] } = .next t :=
  ⟨witness_plans.1.1, next_of_some (by decide)⟩

/-- `DefaultLineBufferFitsEveryPlan`: the largest configuration, the three failures where their ranges meet, and a step on
the default instance. -/
theorem witness_default_lineBuffer :
    (65535 < 65536 ∧ 256 ≤ 256 ∧ planner 4294836225 256 65535 65535 65535 = .plan 8 4294836225 4294836225 4294836225
        ∧ planner 4294836225 257 65535 65535 65535 = .failure .paletteTooBig
        ∧ planner 4294836225 1 65535 65535 65535 = .failure .paletteTooSmall
        ∧ planner 4294836225 256 65535 65535 0 = .failure .zeroDim)
      ∧ fetchB.lbBytes = 4294836225 ∧ fetchB.err ≠ .lineTooLong ∧ ∃ t, step fetchB = .next t :=
  ⟨by decide, by decide, by decide, next_of_some (by decide)⟩

/-- `ErrorEntry`: a planner failure (code 4) and another error (code 5). -/
theorem witness_error_codes :
    ErrCode.lineTooLong ≠ .noError ∧ ErrCode.lineTooLong.code.toNat ≤ 4 ∧ ErrCode.noPlan ≠ .noError
      ∧ 4 < ErrCode.noPlan.code.toNat := by decide

/-- `BytepopTakesTheHead`, both clauses. -/
theorem witness_out : lastB.out = 0x5A#8 :: [0x00#8, 0x5A#8] ∧ State.reset.out = [] := by decide

/-- `StreamsAreFirstInFirstOut`: one turn for each alternative. -/
theorem witness_stream_turns :
    (∃ t, step lastB = .next t) ∧ (∃ t, step { fetchB with agenda := [.pix 7#8] } = .next t) ∧ (∃ t, step fetchB = .next t)
      ∧ (∃ t, step { fetchB with agenda := [.pixdrop] } = .next t)
      ∧ ∃ t, step { lastB with agenda := [.byte 0#8] } = .next t :=
  ⟨next_of_some (by decide), next_of_some (by decide), next_of_some (by decide), next_of_some (by decide),
    next_of_some (by decide)⟩

/-- `FetchTakesTheHead`, both clauses. -/
theorem witness_fetch :
    (fetchB.phase = .pack ∧ fetchB.pixv = false ∧ fetchB.col.toNat < fetchB.srcW.toNat ∧ fetchB.planValid = true
        ∧ fetchB.pixIn = 1#8 :: [2#8, 0#8])
      ∧ { fetchB with pixIn := [] }.col.toNat < { fetchB with pixIn := [] }.srcW.toNat
      ∧ { fetchB with pixIn := [] }.pixIn = [] := by decide

/-- `InsertOneBitPixel`: the first slot (not full) and the last (full), a copy count that ends and one that goes on. -/
theorem witness_insert1 :
    (InsertReady 1 (inserting 2 8 1 1 1 3#8) ∧ ByteDetermined (inserting 2 8 1 1 1 3#8))
      ∧ InsertReady 1 { inserting 2 8 2 1 2 1#8 with slot := 7#3 }
      ∧ ByteDetermined { inserting 2 8 2 1 2 1#8 with slot := 7#3 } := by decide

/-- `InsertTwoBitPixel`, first and last slot. -/
theorem witness_insert2 :
    (InsertReady 2 (inserting 4 4 1 2 1 2#8) ∧ ByteDetermined (inserting 4 4 1 2 1 2#8))
      ∧ InsertReady 2 { inserting 4 4 2 2 2 2#8 with slot := 3#3 }
      ∧ ByteDetermined { inserting 4 4 2 2 2 2#8 with slot := 3#3 } := by decide

/-- `InsertFourBitPixel`, first and last slot. -/
theorem witness_insert4 :
    (InsertReady 4 (inserting 16 2 1 4 1 5#8) ∧ ByteDetermined (inserting 16 2 1 4 1 5#8))
      ∧ InsertReady 4 { inserting 16 2 2 4 2 5#8 with slot := 1#3 }
      ∧ ByteDetermined { inserting 16 2 2 4 2 5#8 with slot := 1#3 } := by decide

/-- `InsertEightBitPixel`, both clauses; `InsertNeverOverlaps`. -/
theorem witness_insert8 :
    (InsertReady 8 (inserting 200 1 2 8 2 200#8) ∧ ByteDetermined (inserting 200 1 2 8 2 200#8)
        ∧ (inserting 200 1 2 8 2 200#8).acc = 0#8)
      ∧ Inv (inserting 200 1 2 8 2 200#8) ∧ (inserting 200 1 2 8 2 200#8).phase = .pack
      ∧ (inserting 200 1 2 8 2 200#8).depth = 8#4 ∧ (inserting 200 1 2 8 2 200#8).pixv = true :=
  ⟨by decide, witness_inv_insert8, by decide, by decide, by decide⟩

/-- `AnyValueModeFreesTheByte`, first clause: an offending pixel at every depth, and a byte already tainted, filling. -/
theorem witness_anyValue_insert :
    (IsInsert 1 (.insert1 true) ∧ InsertReady 1 { inserting 2 8 1 1 1 2#8 with oorMode := .anyValue, slot := 7#3 }
        ∧ 2 ≤ (inserting 2 8 1 1 1 2#8).pixreg.toNat)
      ∧ (IsInsert 2 (.insert2 false) ∧ InsertReady 2 { inserting 3 4 1 2 1 3#8 with oorMode := .anyValue })
      ∧ (IsInsert 4 (.insert4 false)
        ∧ InsertReady 4 { inserting 5 2 1 4 1 1#8 with oorMode := .anyValue, slot := 1#3, accTaint := true })
      ∧ IsInsert 8 (.insert8 false) ∧ InsertReady 8 { inserting 17 1 1 8 1 255#8 with oorMode := .anyValue } := by
  refine ⟨⟨.inl ⟨rfl, _, rfl⟩, by decide, by decide⟩, ⟨.inr (.inl ⟨rfl, _, rfl⟩), by decide⟩,
    ⟨.inr (.inr (.inl ⟨rfl, _, rfl⟩)), by decide⟩, .inr (.inr (.inr ⟨rfl, _, rfl⟩)), by decide⟩

/-- `AnyValueModeFreesTheByte`, second clause. -/
def taintedEol : State := { eolB with oorMode := .anyValue, accTaint := true }

theorem witness_anyValue_eol :
    taintedEol.phase = .pack ∧ taintedEol.pixv = false ∧ taintedEol.col = taintedEol.srcW ∧ taintedEol.planValid = true
      ∧ taintedEol.slot ≠ 0#3 ∧ taintedEol.bidx.toNat < taintedEol.lbBytes ∧ taintedEol.accTaint = true := by decide

/-- An EOL with nothing to flush. -/
def fullEol : State := { planned 2 8 1 1 1 1 with phase := .pack, col := 8#16, bidx := 1#32, lb := [(0, 0xF1#8)] }

/-- `EolTurnsToReplay`, with a byte to flush and without. -/
theorem witness_eol :
    (eolB.phase = .pack ∧ eolB.pixv = false ∧ eolB.col = eolB.srcW ∧ eolB.planValid = true ∧ eolB.accTaint = false
        ∧ eolB.slot ≠ 0#3 ∧ eolB.bidx.toNat < eolB.lbBytes)
      ∧ fullEol.phase = .pack ∧ fullEol.pixv = false ∧ fullEol.col = fullEol.srcW ∧ fullEol.planValid = true
      ∧ fullEol.accTaint = false ∧ fullEol.slot = 0#3 := by decide

/-- `EolLeavesThePackedScanline`. -/
theorem witness_eol_line :
    Inv eolB ∧ Determined eolB ∧ eolB.phase = .pack ∧ eolB.pixv = false ∧ eolB.col = eolB.srcW
      ∧ ∃ t, exec (.eol 2#4) eolB = .next t :=
  ⟨witness_inv_eol, by decide, by decide, by decide, by decide, next_of_some (by decide)⟩

/-- `EmitPushesTheByte`: its four branches, and the sink not ready. -/
theorem witness_emit :
    ((emitting 0 0 0).phase = .replay ∧ (emitting 0 0 0).planValid = true
        ∧ (emitting 0 0 0).bidx.toNat + 1 < (emitting 0 0 0).bps.toNat
        ∧ (emitting 0 0 0).bidx.toNat < (emitting 0 0 0).lbBytes ∧ (emitting 0 0 0).sinkReady = true)
      ∧ ((emitting 1 0 0).bidx.toNat < (emitting 1 0 0).bps.toNat
        ∧ (emitting 1 0 0).vrep.toNat + 1 < (emitting 1 0 0).scale.toNat)
      ∧ ((emitting 1 1 0).bidx.toNat < (emitting 1 1 0).bps.toNat
        ∧ (emitting 1 1 0).row.toNat + 1 < (emitting 1 1 0).srcH.toNat)
      ∧ ((emitting 1 1 1).bidx.toNat < (emitting 1 1 1).bps.toNat
        ∧ ¬ (emitting 1 1 1).row.toNat + 1 < (emitting 1 1 1).srcH.toNat)
      ∧ { emitting 0 0 0 with sinkReady := false }.sinkReady = false := by decide

/-- `EmittedByteWasWritten`, `LastEmitCompletesTheFrame`, `TakingAndEmittingAlternate` (second clause). -/
theorem witness_last_emit :
    Inv lastB ∧ lastB.phase = .replay
      ∧ ∃ t, step lastB = .next t ∧ t.emitted = lastB.emitted ++ [0x00#8] ∧ t.phase = .idle ∧ t.done = true := by
  refine ⟨witness_inv_last, by decide, ?_⟩
  obtain ⟨t, ht⟩ := next_of_some (show (nextState? (step lastB)).isSome = true by decide)
  have h : after (fun t => (t.emitted, t.phase, t.done)) (step lastB) = some (lastB.emitted ++ [0x00#8], .idle, true) := by
    decide
  rw [ht] at h
  simp only [after, nextState?, Option.map_some, Option.some.injEq, Prod.mk.injEq] at h
  exact ⟨t, ht, h⟩

/-- `TakingAndEmittingAlternate` (first clause), `InvariantIsKept`, `InvariantStatesNeverStop`, `LineBufferFormIsKept`. -/
theorem witness_taking :
    Inv fetchB ∧ LineBufferInv fetchB
      ∧ ∃ t, step fetchB = .next t ∧ t.taken = fetchB.taken ++ [1#8] := by
  refine ⟨witness_inv_fetch, by decide, ?_⟩
  obtain ⟨t, ht⟩ := next_of_some (show (nextState? (step fetchB)).isSome = true by decide)
  have h : after State.taken (step fetchB) = some (fetchB.taken ++ [1#8]) := by decide
  rw [ht] at h
  exact ⟨t, ht, by simpa [after, nextState?] using h⟩

/-- `MicroStepFrame`: one state for each micro-step's shape. -/
theorem witness_microSteps :
    (isMicroStep (.fetch 2#4) = true ∧ ∃ t, exec (.fetch 2#4) fetchB = .next t)
      ∧ (isMicroStep (.insert2 false) = true ∧ ∃ t, exec (.insert2 false) insertB = .next t)
      ∧ (isMicroStep (.eol 2#4) = true ∧ ∃ t, exec (.eol 2#4) eolB = .next t)
      ∧ isMicroStep (.emit false false 2#4) = true ∧ ∃ t, exec (.emit false false 2#4) replayB = .next t :=
  ⟨⟨by decide, next_of_some (by decide)⟩, ⟨by decide, next_of_some (by decide)⟩,
    ⟨by decide, next_of_some (by decide)⟩, by decide, next_of_some (by decide)⟩

/-- `OperationsStopOnlyWhereRefused`: the four refusals and the fault. -/
theorem witness_stops :
    nextState? (exec (.fetch 2#4) { fetchB with planValid := false }) = none
      ∧ nextState? (exec (.fetch 2#4) { fetchB with col := 4#16 }) = none
      ∧ nextState? (exec (.insert2 false) { insertB with slot := 4#3 }) = none
      ∧ nextState? (exec (.insert2 false) { insertB with slot := 3#3, lbBytes := 0 }) = none
      ∧ nextState? (exec (.emit false false 2#4) { replayB with bidx := 2#32 }) = none := by decide

/-- `PhaseTransitions`: a frame starts, EOL, the last EMIT, and ABORT. -/
theorem witness_transitions :
    (Inv { planned 3 3 1 2 2 2 with agenda := [.reg 0x1000000002#37] }
        ∧ after State.phase (step { planned 3 3 1 2 2 2 with agenda := [.reg 0x1000000002#37] }) = some .pack)
      ∧ (Inv eolB ∧ after State.phase (step eolB) = some .replay)
      ∧ (Inv lastB ∧ after State.phase (step lastB) = some .idle)
      ∧ Inv { eolB with agenda := [.reg 0x1000000004#37] }
      ∧ after State.phase (step { eolB with agenda := [.reg 0x1000000004#37] }) = some .idle :=
  ⟨⟨witness_inv_idle, by decide⟩, ⟨witness_inv_eol, by decide⟩, ⟨witness_inv_last, by decide⟩, witness_inv_eol,
    by decide⟩

/-- `ErrorsArePreciseAndEarly`: a turn that raises an error, and one that leaves an error shown. -/
theorem witness_error_turns :
    after State.err (step { State.reset with agenda := [.reg 0x1000000002#37] }) = some .noPlan
      ∧ after State.err (step { State.reset with err := .badCmd, agenda := [.pix 0#8] }) = some .badCmd := by decide

/-- `UninterruptedFrameRun`: all its hypotheses together. -/
def readyB : State := { planned 3 3 1 2 2 2 with pixIn := [1#8, 2#8, 0#8, 9#8] }

theorem witness_frame_run :
    Inv readyB ∧ readyB.phase = .idle ∧ readyB.planValid = true ∧ 1 ≤ readyB.srcH.toNat ∧ readyB.agenda = []
      ∧ readyB.sinkReady = true ∧ readyB.pixIn = [1#8, 2#8, 0#8] ++ [9#8]
      ∧ [1#8, 2#8, 0#8].length = readyB.srcW.toNat * readyB.srcH.toNat ∧ readyB.oorMode = .truncate
      ∧ PixelsInPalette readyB.palLen.toNat [1#8, 2#8, 0#8] := by
  refine ⟨?_, by decide, by decide, by decide, by decide, by decide, by decide, by decide, by decide, by decide⟩
  refine ⟨by decide, by decide, by decide, by decide, ?_, ?_, ?_⟩ <;> decide

/-- `FrameUnpacksToTheSource`, `VerticalReplication`: the last output pixel of T5. -/
theorem witness_unpack :
    IsDepth 2 ∧ [1#8, 2#8, 3#8, 3#8, 0#8, 1#8].length = 3 * 2 ∧ 5 < 3 * 2 ∧ 3 < 2 * 2 ∧ 1 < 2
      ∧ unpackPixel (frame [1#8, 2#8, 3#8, 3#8, 0#8, 1#8] 3 2 2 2) 2 (bytesPerLine 2 6) 5 3 = 1 := by decide

/-- `PaddingIsZero`: a scanline that does not fill its last byte (T1's width), and one that does (T17's). -/
theorem witness_padding :
    (IsDepth 1 ∧ 1 ≤ (List.replicate 9 1#8).length ∧ (List.replicate 9 1#8).length * 1 % ppb 1 ≠ 0)
      ∧ (List.replicate 8 1#8).length * 1 % ppb 1 = 0 := by decide

/-- `PaletteChunks`: a palette with a transparency table and one without; an entry of each kind. -/
theorem witness_palettes :
    [Color.rgb 0#8 0#8 0#8, .rgba 255#8 0#8 0#8 128#8][0]? = some (.rgb 0#8 0#8 0#8)
      ∧ [Color.rgb 0#8 0#8 0#8, .rgba 255#8 0#8 0#8 128#8][1]? = some (.rgba 255#8 0#8 0#8 128#8)
      ∧ trns [.rgb 0#8 0#8 0#8, .rgba 255#8 0#8 0#8 128#8] = some [255#8, 128#8]
      ∧ trns [.rgb 0#8 0#8 0#8, .rgb 255#8 0#8 0#8] = none := by decide

end Sys2Proof.Tests
end

section
/-! PROOF. The default line buffer (00 R7): no scanline exceeds it, and where it is used nothing raises `LineTooLong`.
The second half rests on `lineTooLong_step`, which holds for every `LB_BYTES`: a step shows that code only where it
stood already or where the planner answers it on the configuration of that very step. -/

namespace Sys2Proof.Machine

/-! ### The planner on the default line buffer -/

/-- The longest scanline is 65535 * 65535 pixels at one byte each, exactly the default `LB_BYTES` (00 R7). -/
theorem bytesPerLine_le_default (p : Nat) {w c : Nat} (hw : w < 65536) (hc : c < 65536) :
    bytesPerLine (depthOf p) (w * c) ≤ Config.lbBytesDefault :=
  calc bytesPerLine (depthOf p) (w * c) ≤ w * c := bytesPerLine_le p (w * c)
    _ ≤ 65535 * 65535 := Nat.mul_le_mul (by omega) (by omega)

/-- The planner answers `LineTooLong` only for a scanline longer than the line buffer (41 R99). -/
theorem lt_bytesPerLine_of_planner_lineTooLong {lb p w h c : Nat} (hf : planner lb p w h c = .failure .lineTooLong) :
    lb < bytesPerLine (depthOf p) (w * c) := by
  rcases planner_cases lb p w h c with ⟨_, e⟩ | ⟨_, e⟩ | ⟨_, _, _, e⟩ | ⟨_, _, _, _, hlt, _⟩ | ⟨_, _, _, _, _, e⟩
  · rw [e] at hf; cases hf
  · rw [e] at hf; cases hf
  · rw [e] at hf; cases hf
  · exact hlt
  · rw [e] at hf; cases hf

theorem planner_default_ne_lineTooLong (p h : Nat) {w c : Nat} (hw : w < 65536) (hc : c < 65536) :
    planner Config.lbBytesDefault p w h c ≠ .failure .lineTooLong := fun hf =>
  Nat.not_lt.2 (bytesPerLine_le_default p hw hc) (lt_bytesPerLine_of_planner_lineTooLong hf)

/-- A plan the planner answers fits the line buffer; every failure but `LineTooLong` is one of the other three. -/
theorem planner_fits_or_fails (lb p w h c : Nat) (hne : planner lb p w h c ≠ .failure .lineTooLong) :
    (∃ d ow oh n, planner lb p w h c = .plan d ow oh n ∧ n ≤ lb)
    ∨ planner lb p w h c = .failure .paletteTooBig ∨ planner lb p w h c = .failure .paletteTooSmall
    ∨ planner lb p w h c = .failure .zeroDim := by
  rcases planner_cases lb p w h c with ⟨_, e⟩ | ⟨_, e⟩ | ⟨_, _, _, e⟩ | ⟨_, _, _, _, _, e⟩ | ⟨_, _, _, _, hle, e⟩
  · exact .inr (.inl e)
  · exact .inr (.inr (.inl e))
  · exact .inr (.inr (.inr e))
  · exact absurd e hne
  · exact .inl ⟨_, _, _, _, e, hle⟩

theorem planOf_default_ne_lineTooLong {s : State} (hlb : s.lbBytes = Config.lbBytesDefault) :
    planOf s ≠ .failure .lineTooLong := by
  unfold planOf
  rw [hlb]
  exact planner_default_ne_lineTooLong _ _ s.srcW.isLt s.scale.isLt

/-! ### What the operations make of the parameters and of `ERR` -/

/-- From `s` to `t` the parameters and `ERR` stay. -/
structure KeepsErr (s t : State) : Prop where
  params : SameParams s t
  err : t.err = s.err

/-- From `s` to `t` the parameters stay, and `t` shows `LineTooLong` only if `s` did or the planner answers it on
`s`. -/
structure LineTooLongFromPlanner (s t : State) : Prop where
  params : SameParams s t
  shown : t.err = .lineTooLong → s.err = .lineTooLong ∨ planOf s = .failure .lineTooLong

theorem KeepsErr.refl (s : State) : KeepsErr s s := ⟨⟨rfl, rfl⟩, rfl⟩

theorem KeepsErr.trans {s t u : State} (h₁ : KeepsErr s t) (h₂ : KeepsErr t u) : KeepsErr s u where
  params := ⟨h₂.params.1.trans h₁.params.1, h₂.params.2.trans h₁.params.2⟩
  err := h₂.err.trans h₁.err

theorem KeepsErr.lineTooLong {s t : State} (h : KeepsErr s t) : LineTooLongFromPlanner s t where
  params := h.params
  shown ht := .inl (h.err.symm.trans ht)

/-- What comes after a step with the property and keeps `ERR` changes nothing about it. -/
theorem LineTooLongFromPlanner.trans_keepsErr {s t u : State} (h₁ : LineTooLongFromPlanner s t) (h₂ : KeepsErr t u) :
    LineTooLongFromPlanner s u where
  params := ⟨h₂.params.1.trans h₁.params.1, h₂.params.2.trans h₁.params.2⟩
  shown hu := h₁.shown (h₂.err.symm.trans hu)

/-- The property for an operation that sets `ERR` to some other code. -/
theorem LineTooLongFromPlanner.of_err_ne {s t : State} (hp : SameParams s t) (hne : t.err ≠ .lineTooLong) :
    LineTooLongFromPlanner s t where
  params := hp
  shown ht := absurd ht hne

theorem keepsErr_setOvr (s : State) : KeepsErr s (setOvr s) := ⟨⟨rfl, rfl⟩, rfl⟩

theorem keepsErr_commitPlan (d ow oh n : Nat) (s : State) : KeepsErr s (commitPlan d ow oh n s) := ⟨⟨rfl, rfl⟩, rfl⟩

theorem keepsErr_startFrame (s : State) : KeepsErr s (startFrame s) := by
  by_cases h : s.outH = 0#32
  · rw [startFrame_empty h]; exact ⟨⟨rfl, rfl⟩, rfl⟩
  · rw [startFrame_frame h]; exact ⟨⟨rfl, rfl⟩, rfl⟩

theorem keepsErr_configStore (idx : BitVec 4) (v : Half) (s : State) : KeepsErr s (configStore idx v s) := by
  unfold configStore
  split <;> exact ⟨⟨rfl, rfl⟩, rfl⟩

theorem keepsErr_configWrite (idx : BitVec 4) (data : Word) (s : State) : KeepsErr s (configWrite idx data s) := by
  rcases configWrite_cases idx data s with ⟨_, e⟩ | ⟨_, e⟩ <;> rw [e]
  · exact keepsErr_setOvr s
  · exact (keepsErr_configStore idx (configValue data) s).trans ⟨⟨rfl, rfl⟩, rfl⟩

theorem keepsErr_storeByte (tainted : Bool) (v : Byte) (s : State) : KeepsErr s (storeByte tainted v s) := by
  rcases storeByte_cases tainted v s with ⟨_, e⟩ | ⟨_, e⟩ <;> rw [e] <;> exact ⟨⟨rfl, rfl⟩, rfl⟩

theorem keepsErr_finishByte (d : Nat) (s : State) : KeepsErr s (finishByte d s) :=
  (keepsErr_storeByte _ _ s).trans ⟨⟨rfl, rfl⟩, rfl⟩

theorem keepsErr_extendByte (d : Nat) (s : State) : KeepsErr s (extendByte d s) := ⟨⟨rfl, rfl⟩, rfl⟩

theorem keepsErr_nextCopy (s : State) : KeepsErr s (nextCopy s) := by
  rcases nextCopy_cases s with ⟨_, e⟩ | ⟨_, e⟩ <;> rw [e] <;> exact ⟨⟨rfl, rfl⟩, rfl⟩

theorem keepsErr_turnToReplay (s : State) : KeepsErr s (turnToReplay s) := ⟨⟨rfl, rfl⟩, rfl⟩

theorem keepsErr_pushByte (b : Byte) (s : State) : KeepsErr s (pushByte b s) := ⟨⟨rfl, rfl⟩, rfl⟩

theorem keepsErr_afterEmit (s : State) : KeepsErr s (afterEmit s) := by
  rcases afterEmit_cases s with ⟨_, e⟩ | ⟨_, _, e⟩ | ⟨_, _, _, e⟩ | ⟨_, _, _, e⟩ <;> rw [e] <;> exact ⟨⟨rfl, rfl⟩, rfl⟩

/-! ### The micro-steps -/

theorem keepsErr_insertCopy {d : Nat} {s t : State} (h : insertCopy d s = .next t) : KeepsErr s t := by
  rcases insertCopy_next h with rfl | ⟨_, _, _, _, _, ⟨_, _, rfl⟩ | ⟨_, rfl⟩⟩
  · exact .refl _
  · exact (keepsErr_finishByte d s).trans (keepsErr_nextCopy _)
  · exact (keepsErr_extendByte d s).trans (keepsErr_nextCopy _)

/-- No micro-step changes the parameters or `ERR` (60 R174). -/
theorem keepsErr_microStep {i : Instr} {s t : State} (hi : isMicroStep i = true) (h : exec i s = .next t) :
    KeepsErr s t := by
  cases i with
  | fetch d =>
    rcases execFetch_next (d := d) h with rfl | ⟨_, _, _, _, p, rest, _, rfl⟩
    · exact .refl _
    · exact ⟨⟨rfl, rfl⟩, rfl⟩
  | insert1 e => exact keepsErr_insertCopy h
  | insert2 e => exact keepsErr_insertCopy h
  | insert4 e => exact keepsErr_insertCopy h
  | insert8 e => exact keepsErr_insertCopy h
  | eol d =>
    rcases execEol_next (d := d) h with rfl | ⟨_, _, _, _, ⟨_, rfl⟩ | ⟨_, _, rfl⟩⟩
    · exact .refl _
    · exact keepsErr_turnToReplay s
    · exact (keepsErr_storeByte _ _ s).trans (keepsErr_turnToReplay _)
  | emit p e d =>
    rcases execEmit_next (p := p) (e := e) (d := d) h with rfl | ⟨_, _, _, _, _, rfl⟩
    · exact .refl _
    · exact (keepsErr_pushByte _ s).trans (keepsErr_afterEmit _)
  | regrd | regwr | nop | plan | rast | render | abort | pixpush | bytepop => cases hi

/-! ### The commands -/

/-- 60 R173: an error entry records its code and keeps the parameters. -/
theorem raiseError_params_err (code : ErrCode) (s : State) :
    SameParams s (raiseError code s) ∧ (raiseError code s).err = code := by
  cases h : code.isPlanner
  · rw [raiseError_other h]; exact ⟨⟨rfl, rfl⟩, rfl⟩
  · rw [raiseError_planner h]; exact ⟨⟨rfl, rfl⟩, rfl⟩

theorem lineTooLong_raiseError {code : ErrCode} (hc : code ≠ .lineTooLong) (s : State) :
    LineTooLongFromPlanner s (raiseError code s) := by
  obtain ⟨hp, he⟩ := raiseError_params_err code s
  exact .of_err_ne hp (by rwa [he])

theorem lineTooLong_doPlan (s : State) : LineTooLongFromPlanner s (doPlan s) := by
  rcases doPlan_cases s with ⟨code, _, hf, e⟩ | ⟨_, e⟩ <;> rw [e]
  · obtain ⟨hp, he⟩ := raiseError_params_err code s
    exact ⟨hp, fun ht => .inr (by rw [hf, ← he, ht])⟩
  · exact (keepsErr_commitPlan _ _ _ _ s).lineTooLong

theorem lineTooLong_doRast (s : State) : LineTooLongFromPlanner s (doRast s) := by
  rcases doRast_cases s with ⟨_, e⟩ | ⟨_, e⟩ <;> rw [e]
  · exact lineTooLong_raiseError (by decide) s
  · exact (keepsErr_startFrame s).lineTooLong

theorem lineTooLong_doRender (s : State) : LineTooLongFromPlanner s (doRender s) := by
  rcases doRender_cases s with ⟨_, _, e⟩ | ⟨_, _, _, _, _, e⟩ <;> rw [e]
  · exact lineTooLong_doPlan s
  · exact (lineTooLong_doPlan s).trans_keepsErr (keepsErr_startFrame _)

/-- A command keeps the property through its acceptance: a drop leaves `ERR`, and clearing the flags leaves what the
planner reads. -/
theorem lineTooLong_acceptIdle {effect : State → State} (he : ∀ s, LineTooLongFromPlanner s (effect s)) (s : State) :
    LineTooLongFromPlanner s (acceptIdle effect s) := by
  by_cases hidle : s.phase = .idle
  · rw [acceptIdle_idle effect hidle]
    obtain ⟨hp, hshown⟩ := he (clearFlags s)
    exact ⟨hp, fun ht => (hshown ht).imp nofun id⟩
  · rw [acceptIdle_busy effect hidle]
    exact (keepsErr_setOvr s).lineTooLong

theorem lineTooLong_doAbort (s : State) : LineTooLongFromPlanner s (doAbort s) := .of_err_ne ⟨rfl, rfl⟩ nofun

theorem lineTooLong_badCommand (s : State) : LineTooLongFromPlanner s (badCommand s) := by
  rcases badCommand_cases s with ⟨_, e⟩ | ⟨_, e⟩ <;> rw [e]
  · exact (keepsErr_setOvr s).lineTooLong
  · exact lineTooLong_raiseError (by decide) s

theorem lineTooLong_issueCommand (c : Word) (s : State) : LineTooLongFromPlanner s (issueCommand c s) := by
  rcases issueCommand_cases c s with ⟨_, e⟩ | ⟨_, e⟩ | ⟨_, e⟩ | ⟨_, e⟩ | ⟨_, e⟩ | ⟨_, e⟩ <;> rw [e]
  · exact (KeepsErr.refl s).lineTooLong
  · exact lineTooLong_doAbort s
  · exact lineTooLong_acceptIdle lineTooLong_doPlan s
  · exact lineTooLong_acceptIdle lineTooLong_doRast s
  · exact lineTooLong_acceptIdle lineTooLong_doRender s
  · exact lineTooLong_badCommand s

/-! ### Every operation, every step -/

theorem lineTooLong_execRegwr {idx : BitVec 4} {data : Word} {s t : State} (h : execRegwr idx data s = .next t) :
    LineTooLongFromPlanner s t := by
  unfold execRegwr at h
  split at h
  · cases h; exact lineTooLong_issueCommand data s
  · split at h
    · cases h; exact (keepsErr_configWrite idx data s).lineTooLong
    · cases h; exact (KeepsErr.refl s).lineTooLong

theorem keepsErr_execBytepop {bus : Byte} {s t : State} (h : execBytepop bus s = .next t) : KeepsErr s t := by
  unfold execBytepop at h
  split at h <;> cases h <;> exact ⟨⟨rfl, rfl⟩, rfl⟩

theorem lineTooLong_exec {i : Instr} {s t : State} (h : exec i s = .next t) : LineTooLongFromPlanner s t := by
  cases i with
  | regrd idx data => cases h; exact KeepsErr.lineTooLong ⟨⟨rfl, rfl⟩, rfl⟩
  | regwr idx data => exact lineTooLong_execRegwr h
  | nop => cases h; exact (KeepsErr.refl s).lineTooLong
  | plan => cases h; exact lineTooLong_acceptIdle lineTooLong_doPlan s
  | rast => cases h; exact lineTooLong_acceptIdle lineTooLong_doRast s
  | render => cases h; exact lineTooLong_acceptIdle lineTooLong_doRender s
  | abort => cases h; exact lineTooLong_doAbort s
  | pixpush pixel => cases h; exact KeepsErr.lineTooLong ⟨⟨rfl, rfl⟩, rfl⟩
  | bytepop bus => exact (keepsErr_execBytepop (bus := bus) h).lineTooLong
  | fetch | insert1 | insert2 | insert4 | insert8 | eol | emit => exact (keepsErr_microStep rfl h).lineTooLong

/-- Taking the event off the agenda leaves all that the property reads, so it may be shown from `afterFetch s`. -/
theorem lineTooLong_of_afterFetch {s t : State} (h : LineTooLongFromPlanner (afterFetch s) t) :
    LineTooLongFromPlanner s t := by
  obtain ⟨ready, rest, e⟩ := afterFetch_same s
  rw [e] at h
  exact ⟨h.params, h.shown⟩

/-- Whatever `LB_BYTES` is, a step keeps the parameters, and shows `LineTooLong` only where the state before it did or
where the planner answers it on that state's configuration. -/
theorem lineTooLong_step {s t : State} (h : step s = .next t) : LineTooLongFromPlanner s t := by
  apply lineTooLong_of_afterFetch
  rcases step_next h with ⟨i, _, hexec⟩ | ⟨_, _, _, _, rfl⟩ | ⟨_, _, rfl⟩ | ⟨_, _, rfl⟩
  · exact lineTooLong_exec hexec
  · exact (KeepsErr.refl _).lineTooLong
  · exact .of_err_ne ⟨rfl, rfl⟩ nofun
  · exact KeepsErr.lineTooLong ⟨⟨rfl, rfl⟩, rfl⟩

/-- With the default `LB_BYTES` no step sets `ERR` to `LineTooLong` or changes that parameter (00 R7). -/
theorem step_default_err_lbBytes {s t : State} (hlb : s.lbBytes = Config.lbBytesDefault) (herr : s.err ≠ .lineTooLong)
    (h : step s = .next t) : t.err ≠ .lineTooLong ∧ t.lbBytes = Config.lbBytesDefault := by
  obtain ⟨⟨hkept, _⟩, hshown⟩ := lineTooLong_step h
  exact ⟨fun ht => (hshown ht).elim herr (planOf_default_ne_lineTooLong hlb), hkept.trans hlb⟩

/-- Settles O20: the longest scanline of all is exactly the default `LB_BYTES`, and only the planner raises
`LineTooLong`. -/
theorem defaultLineBufferFitsEveryPlan : Obligations.DefaultLineBufferFitsEveryPlan := by
  refine ⟨fun p w h c _ hw _ hc => ?_, fun s t => step_default_err_lbBytes⟩
  have hne := planner_default_ne_lineTooLong p h hw hc
  exact ⟨fun _ => bytesPerLine_le_default p hw hc, hne, planner_fits_or_fails _ p w h c hne⟩

end Sys2Proof.Machine
end

section
/-! PROOF. The packed scanline as it grows pixel by pixel (30 R70, 42 R110), and the frame as it grows scanline by
scanline (42 R113): what an INSERT adds to a byte, what a last copy of a scanline adds to a frame. -/

namespace Sys2Proof.Machine

/-! ### Depths -/

theorem isDepth_depthOf (p : Nat) : IsDepth (depthOf p) := depthOf_cases p

/-- 41 R94: pixels of the four depths fill a byte exactly. -/
theorem IsDepth.mul_ppb {d : Nat} (hd : IsDepth d) : d * ppb d = 8 := by
  rcases hd with rfl | rfl | rfl | rfl <;> rfl

/-- A depth fits its 4-bit register. -/
theorem IsDepth.eq_toNat {d : Nat} (hd : IsDepth d) {r : BitVec 4} (h : r = BitVec.ofNat 4 d) : d = r.toNat := by
  rcases hd with rfl | rfl | rfl | rfl <;> simp [h]

theorem IsDepth.ppb_pos {d : Nat} (hd : IsDepth d) : 0 < ppb d := by
  have := hd.mul_ppb
  exact Nat.pos_of_ne_zero fun h => by simp [h] at this

/-- 41 R96: a scanline that fills its bytes has no other. -/
theorem IsDepth.bytesPerLine_of_mod_eq_zero {d : Nat} (hd : IsDepth d) {n : Nat} (h : n % ppb d = 0) :
    bytesPerLine d n = n / ppb d := by
  rcases hd with rfl | rfl | rfl | rfl <;> simp only [bytesPerLine, ppb, Nat.reduceDiv] at h ⊢ <;> omega

/-- 41 R96: pixels left over take one byte more. -/
theorem IsDepth.bytesPerLine_of_mod_ne_zero {d : Nat} (hd : IsDepth d) {n : Nat} (h : n % ppb d ≠ 0) :
    bytesPerLine d n = n / ppb d + 1 := by
  rcases hd with rfl | rfl | rfl | rfl <;> simp only [bytesPerLine, ppb, Nat.reduceDiv] at h ⊢ <;> omega

/-- The byte of any pixel of a scanline is one of the scanline's. -/
theorem IsDepth.div_ppb_lt_bytesPerLine {d : Nat} (hd : IsDepth d) {k n : Nat} (h : k < n) :
    k / ppb d < bytesPerLine d n := by
  rcases hd with rfl | rfl | rfl | rfl <;> simp only [bytesPerLine, ppb, Nat.reduceDiv] <;> omega

/-! ### The partial sums of a byte -/

/-- The first `n` slots of byte `j`, as the sum of 42 R110 has them. -/
def slotSum (d : Nat) (ex : List Byte) (j n : Nat) : Nat := ((List.range n).map (slotTerm d ex j)).sum

theorem lineByte_eq_slotSum (d : Nat) (ex : List Byte) (j : Nat) :
    lineByte d ex j = BitVec.ofNat 8 (slotSum d ex j (ppb d)) := rfl

@[simp] theorem slotSum_zero (d : Nat) (ex : List Byte) (j : Nat) : slotSum d ex j 0 = 0 := rfl

theorem slotSum_succ (d : Nat) (ex : List Byte) (j n : Nat) :
    slotSum d ex j (n + 1) = slotSum d ex j n + slotTerm d ex j n := List.sum_range_succ _ n

/-- A slot that holds pixel `p`. -/
theorem slotTerm_of_getElem? {d j i : Nat} {ex : List Byte} {p : Byte} (h : ex[j * ppb d + i]? = some p) :
    slotTerm d ex j i = pixelField d p * 2 ^ slotShift d i := by simp [slotTerm, h]

/-- A slot that a scanline reaches is the same in every longer one. -/
theorem slotTerm_append {d j i : Nat} {ex : List Byte} (h : j * ppb d + i < ex.length) (more : List Byte) :
    slotTerm d (ex ++ more) j i = slotTerm d ex j i := by
  unfold slotTerm
  rw [List.getElem?_append_left h]

theorem slotSum_append {d j n : Nat} {ex : List Byte} (h : j * ppb d + n ≤ ex.length) (more : List Byte) :
    slotSum d (ex ++ more) j n = slotSum d ex j n := by
  unfold slotSum
  congr 1
  exact List.map_congr_left fun i hi => slotTerm_append (by have := List.mem_range.1 hi; omega) more

/-- Slots past the scanline's end add nothing. -/
theorem slotSum_past {d j m n : Nat} {ex : List Byte} (hm : ex.length ≤ j * ppb d + m) (hmn : m ≤ n) :
    slotSum d ex j n = slotSum d ex j m := by
  induction n, hmn using Nat.le_induction with
  | base => rfl
  | succ n hmn ih => rw [slotSum_succ, slotTerm_past (by omega), ih, Nat.add_zero]

/-- A slot's term, in the room the slots before it leave: a `d`-bit field above `2 ^ (8 - d * (n + 1))`. -/
theorem slotTerm_eq_mul (d : Nat) (ex : List Byte) (j n : Nat) :
    ∃ f < 2 ^ d, slotTerm d ex j n = f * 2 ^ slotShift d n := by
  unfold slotTerm
  split
  · exact ⟨_, Nat.mod_lt _ (Nat.two_pow_pos d), rfl⟩
  · exact ⟨0, Nat.two_pow_pos d, (Nat.zero_mul _).symm⟩

/-- The first `n` slots occupy the byte's high `d * n` bits and no others (30 R70). -/
theorem slotSum_eq_mul (d : Nat) (ex : List Byte) (j n : Nat) (hn : d * n ≤ 8) :
    ∃ q < 2 ^ (d * n), slotSum d ex j n = 2 ^ (8 - d * n) * q := by
  induction n with
  | zero => exact ⟨0, by simp, rfl⟩
  | succ n ih =>
    obtain ⟨q, hq, hsum⟩ := ih (by rw [Nat.mul_succ] at hn; omega)
    obtain ⟨f, hf, hterm⟩ := slotTerm_eq_mul d ex j n
    have hshift : 8 - d * n = slotShift d n + d := by unfold slotShift; rw [Nat.mul_succ] at hn ⊢; omega
    refine ⟨2 ^ d * q + f, ?_, ?_⟩
    · calc 2 ^ d * q + f < 2 ^ d * q + 2 ^ d := by omega
        _ = 2 ^ d * (q + 1) := (Nat.mul_succ _ _).symm
        _ ≤ 2 ^ d * 2 ^ (d * n) := Nat.mul_le_mul_left _ hq
        _ = 2 ^ (d * (n + 1)) := by rw [← Nat.pow_add, Nat.mul_succ, Nat.add_comm]
    · rw [slotSum_succ, hsum, hterm, hshift, Nat.pow_add, show 8 - d * (n + 1) = slotShift d n from rfl]
      ring

/-- 43 R135: a pixel put into the first free slot meets no 1 in `ACC`, so or adds. -/
theorem putPixel_slotSum {d n : Nat} (hn : d * (n + 1) ≤ 8) (ex : List Byte) (j : Nat) (p : Byte) :
    putPixel d n (BitVec.ofNat 8 (slotSum d ex j n)) p
      = BitVec.ofNat 8 (slotSum d ex j n + pixelField d p * 2 ^ slotShift d n) := by
  rw [Nat.mul_succ] at hn
  obtain ⟨q, hq, hsum⟩ := slotSum_eq_mul d ex j n (by omega)
  have hfield : pixelField d p < 2 ^ d := Nat.mod_lt _ (Nat.two_pow_pos d)
  have hshift : 8 - d * n = slotShift d n + d := by unfold slotShift; rw [Nat.mul_succ]; omega
  have hroom : pixelField d p * 2 ^ slotShift d n < 2 ^ (8 - d * n) := by
    rw [hshift, Nat.pow_add, Nat.mul_comm (2 ^ slotShift d n)]
    exact Nat.mul_lt_mul_of_pos_right hfield (Nat.two_pow_pos _)
  have hfit : pixelField d p % 2 ^ 8 = pixelField d p :=
    Nat.mod_eq_of_lt (hfield.trans_le (Nat.pow_le_pow_right (by omega) (by omega)))
  apply BitVec.eq_of_toNat_eq
  rw [putPixel, BitVec.toNat_or, BitVec.toNat_shiftLeft]
  simp only [BitVec.toNat_ofNat]
  rw [hfit, Nat.shiftLeft_eq, ← Nat.or_mod_two_pow, hsum, Nat.two_pow_add_eq_or_of_lt hroom]

/-! ### A scanline with one more pixel -/

/-- A byte the scanline does not reach is 0. -/
theorem lineByte_past {d j : Nat} {ex : List Byte} (h : ex.length ≤ j * ppb d) : lineByte d ex j = 0#8 := by
  rw [lineByte_eq_slotSum, slotSum_past (m := 0) h (Nat.zero_le _), slotSum_zero]

/-- A full byte stays as it is. -/
theorem lineByte_append {d j : Nat} {ex : List Byte} (h : (j + 1) * ppb d ≤ ex.length) (more : List Byte) :
    lineByte d (ex ++ more) j = lineByte d ex j := by
  rw [lineByte_eq_slotSum, lineByte_eq_slotSum, slotSum_append (by rwa [Nat.succ_mul] at h) more]

/-- 43 R135: one more pixel goes into slot `i` of byte `j`, where `j * ppb + i` pixels stand before it. -/
theorem lineByte_snoc {d j i : Nat} {ex : List Byte} (hd : IsDepth d) (hi : i < ppb d)
    (hlen : ex.length = j * ppb d + i) (p : Byte) :
    lineByte d (ex ++ [p]) j = putPixel d i (lineByte d ex j) p := by
  have hroom : d * (i + 1) ≤ 8 := hd.mul_ppb ▸ Nat.mul_le_mul_left d hi
  have hnew : (ex ++ [p])[j * ppb d + i]? = some p := by rw [← hlen]; simp
  have hold : lineByte d ex j = BitVec.ofNat 8 (slotSum d ex j i) := by
    rw [lineByte_eq_slotSum, slotSum_past (by omega) hi.le]
  rw [hold, putPixel_slotSum hroom, lineByte_eq_slotSum, slotSum_past (m := i + 1) (by simp; omega) hi, slotSum_succ,
    slotSum_append hlen.ge, slotTerm_of_getElem? hnew]

/-! ### Scanlines and frames -/

theorem expandRow_append (s : Nat) (a b : List Byte) : expandRow s (a ++ b) = expandRow s a ++ expandRow s b :=
  List.flatMap_append

@[simp] theorem expandRow_singleton (s : Nat) (p : Byte) : expandRow s [p] = List.replicate s p := by simp [expandRow]

@[simp] theorem length_expandRow (s : Nat) (row : List Byte) : (expandRow s row).length = row.length * s := by
  simp [expandRow, List.length_flatMap]

@[simp] theorem length_frameLine (px : List Byte) (w s d r : Nat) :
    (frameLine px w s d r).length = bytesPerLine d (w * s) := by simp [frameLine, packLine]

theorem getElem?_frameLine {px : List Byte} {w s d r j : Nat} (hj : j < bytesPerLine d (w * s)) :
    (frameLine px w s d r)[j]? = some (lineByte d (expandRow s (sourceRow px w r)) j) := by
  simp [frameLine, packLine, hj]

theorem repeatSeq_succ (n : Nat) (l : List Byte) : repeatSeq (n + 1) l = repeatSeq n l ++ l := by
  simp [repeatSeq, List.replicate_succ']

@[simp] theorem frame_zero (px : List Byte) (w s d : Nat) : frame px w 0 s d = [] := rfl

/-- A frame of one scanline more. -/
theorem frame_succ (px : List Byte) (w h s d : Nat) :
    frame px w (h + 1) s d = frame px w h s d ++ repeatSeq s (frameLine px w s d h) := by
  simp [frame, List.range_succ]

/-- Pixels after the frame's own do not change it (70 R201). -/
theorem frame_append {px : List Byte} {w h : Nat} (hlen : w * h ≤ px.length) (more : List Byte) (s d : Nat) :
    frame (px ++ more) w h s d = frame px w h s d := by
  rw [← frame_take, List.take_append_of_le_length hlen, frame_take]

end Sys2Proof.Machine
end

section
/-! PROOF. What one turn can make of the state, as one inductive predicate with a constructor for each branch (20 R48),
and what every turn keeps of the plan, the line buffer's form and the record of errors (10 R22, R29; 60 R182). -/

namespace Sys2Proof.Machine

/-! ### The effects of a turn -/

/-- A micro-step that is taken, branch by branch (43 R134 to R141). -/
inductive MicroEffect (s : State) : State → Prop
  /-- FETCH takes the head of `IN`. -/
  | fetched (hphase : s.phase = .pack) (hpixv : s.pixv = false) (hcol : s.col.toNat < s.srcW.toNat)
      (hplan : s.planValid = true) (p : Byte) (rest : List Byte) (hin : s.pixIn = p :: rest) :
      MicroEffect s (takePixel p rest s)
  /-- INSERT fills the byte. -/
  | filled (hphase : s.phase = .pack) (hpixv : s.pixv = true) (hdepth : IsDepth s.depth.toNat)
      (hplan : s.planValid = true) (hfull : s.slot.toNat + 1 = ppb s.depth.toNat) (hbidx : s.bidx.toNat < s.lbBytes) :
      MicroEffect s (nextCopy (finishByte s.depth.toNat s))
  /-- INSERT leaves room in the byte. -/
  | extended (hphase : s.phase = .pack) (hpixv : s.pixv = true) (hdepth : IsDepth s.depth.toNat)
      (hplan : s.planValid = true) (hroom : s.slot.toNat + 1 < ppb s.depth.toNat) :
      MicroEffect s (nextCopy (extendByte s.depth.toNat s))
  /-- EOL with no byte begun. -/
  | turned (hphase : s.phase = .pack) (hpixv : s.pixv = false) (hcol : s.col = s.srcW) (hplan : s.planValid = true)
      (hslot : s.slot = 0#3) : MicroEffect s (turnToReplay s)
  /-- EOL flushes the byte that was begun. -/
  | flushed (hphase : s.phase = .pack) (hpixv : s.pixv = false) (hcol : s.col = s.srcW) (hplan : s.planValid = true)
      (hslot : s.slot ≠ 0#3) (hbidx : s.bidx.toNat < s.lbBytes) :
      MicroEffect s (turnToReplay (storeByte s.accTaint s.acc s))
  /-- EMIT pushes a byte. -/
  | emitted (hphase : s.phase = .replay) (hready : s.sinkReady = true) (hplan : s.planValid = true)
      (hline : s.bidx.toNat < s.bps.toNat) (hbidx : s.bidx.toNat < s.lbBytes) :
      MicroEffect s (afterEmit (pushByte (lbRead s.lb s.bidx.toNat) s))

/-- What a turn makes of the state once its event is off the agenda. -/
inductive TurnEffect (s : State) : State → Prop
  /-- Nothing, or traffic between the host and the streams and registers it reads. -/
  | traffic (pixIn out : List Byte) (replies : List Word) (received : List Byte) :
      TurnEffect s { s with pixIn := pixIn, out := out, replies := replies, received := received }
  /-- A write dropped while busy (60 R175). -/
  | dropped (hbusy : s.phase ≠ .idle) : TurnEffect s (setOvr s)
  /-- A reserved command word (60 R170). -/
  | badCmd (hidle : s.phase = .idle) : TurnEffect s (raiseError .badCmd s)
  /-- A configuration write (40 R84). -/
  | configured (hidle : s.phase = .idle) (idx : BitVec 4) (v : Half) : TurnEffect s (dropPlan (configStore idx v s))
  /-- PLAN or RENDER accepted, and the planner fails (41 R99, 43 R129). -/
  | failed (hidle : s.phase = .idle) {code : ErrCode} (hplan : planOf s = .failure code) :
      TurnEffect s (raiseError code (clearFlags s))
  /-- PLAN accepted, and the planner plans (41 R100). -/
  | planned (hidle : s.phase = .idle) {d ow oh n : Nat} (hplan : planOf s = .plan d ow oh n) :
      TurnEffect s (commitPlan d ow oh n (clearFlags s))
  /-- RAST accepted without a plan (43 R128). -/
  | noPlan (hidle : s.phase = .idle) (hplan : s.planValid = false) : TurnEffect s (raiseError .noPlan (clearFlags s))
  /-- RAST accepted with one (43 R128). -/
  | started (hidle : s.phase = .idle) (hplan : s.planValid = true) : TurnEffect s (startFrame (clearFlags s))
  /-- RENDER accepted, and the planner plans (43 R129). -/
  | rendered (hidle : s.phase = .idle) {d ow oh n : Nat} (hplan : planOf s = .plan d ow oh n) :
      TurnEffect s (startFrame (commitPlan d ow oh n (clearFlags s)))
  /-- ABORT (43 R130). -/
  | abort : TurnEffect s (doAbort s)
  /-- The reset input (70 R190). -/
  | reset : TurnEffect s (hardReset s)
  /-- A micro-step. -/
  | micro {t : State} (h : MicroEffect s t) : TurnEffect s t

theorem TurnEffect.refl (s : State) : TurnEffect s s := .traffic s.pixIn s.out s.replies s.received

theorem turnEffect_doPlan {s : State} (hidle : s.phase = .idle) : TurnEffect s (doPlan (clearFlags s)) := by
  unfold doPlan
  cases h : planOf (clearFlags s) with
  | failure code => exact .failed hidle h
  | plan d ow oh n => exact .planned hidle h

theorem turnEffect_doRast {s : State} (hidle : s.phase = .idle) : TurnEffect s (doRast (clearFlags s)) := by
  rcases doRast_cases (clearFlags s) with ⟨hplan, e⟩ | ⟨hplan, e⟩ <;> rw [e]
  · exact .noPlan hidle hplan
  · exact .started hidle hplan

theorem turnEffect_doRender {s : State} (hidle : s.phase = .idle) : TurnEffect s (doRender (clearFlags s)) := by
  unfold doRender
  cases h : planOf (clearFlags s) with
  | failure code => exact .failed hidle h
  | plan d ow oh n => exact .rendered hidle h

/-- 40 R83: a command is dropped while busy and has its effect while idle. -/
theorem turnEffect_acceptIdle {effect : State → State} {s : State}
    (h : s.phase = .idle → TurnEffect s (effect (clearFlags s))) : TurnEffect s (acceptIdle effect s) := by
  by_cases hidle : s.phase = .idle
  · rw [acceptIdle_idle effect hidle]; exact h hidle
  · rw [acceptIdle_busy effect hidle]; exact .dropped hidle

theorem turnEffect_issueCommand (c : Word) (s : State) : TurnEffect s (issueCommand c s) := by
  rcases issueCommand_cases c s with ⟨_, e⟩ | ⟨_, e⟩ | ⟨_, e⟩ | ⟨_, e⟩ | ⟨_, e⟩ | ⟨_, e⟩ <;> rw [e]
  · exact .refl s
  · exact .abort
  · exact turnEffect_acceptIdle turnEffect_doPlan
  · exact turnEffect_acceptIdle turnEffect_doRast
  · exact turnEffect_acceptIdle turnEffect_doRender
  · rcases badCommand_cases s with ⟨hbusy, e⟩ | ⟨hidle, e⟩ <;> rw [e]
    · exact .dropped hbusy
    · exact .badCmd hidle

theorem turnEffect_execRegwr {idx : BitVec 4} {data : Word} {s t : State} (h : execRegwr idx data s = .next t) :
    TurnEffect s t := by
  unfold execRegwr at h
  split at h
  · cases h; exact turnEffect_issueCommand data s
  · split at h
    · cases h
      rcases configWrite_cases idx data s with ⟨hbusy, e⟩ | ⟨hidle, e⟩ <;> rw [e]
      · exact .dropped hbusy
      · exact .configured hidle idx _
    · cases h; exact .refl s

theorem turnEffect_execBytepop {bus : Byte} {s t : State} (h : execBytepop bus s = .next t) : TurnEffect s t := by
  unfold execBytepop at h
  split at h <;> cases h
  · exact .refl s
  · exact .traffic s.pixIn _ s.replies _

theorem turnEffect_insertCopy {d : Nat} {s t : State} (hd : IsDepth d) (h : insertCopy d s = .next t) :
    TurnEffect s t := by
  rcases insertCopy_next h with rfl | ⟨hphase, hpixv, hdepth, hplan, hslot, hbranch⟩
  · exact .refl _
  · obtain rfl := hd.eq_toNat hdepth
    rcases hbranch with ⟨hfull, hbidx, rfl⟩ | ⟨hroom, rfl⟩
    · exact .micro (.filled hphase hpixv hd hplan hfull hbidx)
    · exact .micro (.extended hphase hpixv hd hplan (by omega))

/-- Whatever an operation answers is one of the effects. -/
theorem turnEffect_exec {i : Instr} {s t : State} (h : exec i s = .next t) : TurnEffect s t := by
  cases i with
  | regrd idx data => cases h; exact .traffic s.pixIn s.out _ s.received
  | regwr idx data => exact turnEffect_execRegwr h
  | nop => cases h; exact .refl s
  | plan => cases h; exact turnEffect_acceptIdle turnEffect_doPlan
  | rast => cases h; exact turnEffect_acceptIdle turnEffect_doRast
  | render => cases h; exact turnEffect_acceptIdle turnEffect_doRender
  | abort => cases h; exact .abort
  | pixpush pixel => cases h; exact .traffic _ s.out s.replies s.received
  | bytepop bus => exact turnEffect_execBytepop (bus := bus) h
  | fetch d =>
    rcases execFetch_next (d := d) h with rfl | ⟨hphase, hpixv, hcol, hplan, p, rest, hin, rfl⟩
    · exact .refl _
    · exact .micro (.fetched hphase hpixv hcol hplan p rest hin)
  | insert1 e => exact turnEffect_insertCopy (.inl rfl) h
  | insert2 e => exact turnEffect_insertCopy (.inr (.inl rfl)) h
  | insert4 e => exact turnEffect_insertCopy (.inr (.inr (.inl rfl))) h
  | insert8 e => exact turnEffect_insertCopy (.inr (.inr (.inr rfl))) h
  | eol d =>
    rcases execEol_next (d := d) h with rfl | ⟨hphase, hpixv, hcol, hplan, ⟨hslot, rfl⟩ | ⟨hslot, hbidx, rfl⟩⟩
    · exact .refl _
    · exact .micro (.turned hphase hpixv hcol hplan hslot)
    · exact .micro (.flushed hphase hpixv hcol hplan hslot hbidx)
  | emit p e d =>
    rcases execEmit_next (p := p) (e := e) (d := d) h with rfl | ⟨hphase, hready, hplan, hline, hbidx, rfl⟩
    · exact .refl _
    · exact .micro (.emitted hphase hready hplan hline hbidx)

/-- Whatever a step answers is one of the effects, on the state with the event off the agenda. -/
theorem turnEffect_step {s t : State} (h : step s = .next t) : TurnEffect (afterFetch s) t := by
  rcases step_next h with ⟨i, _, hexec⟩ | ⟨_, _, _, _, rfl⟩ | ⟨_, _, rfl⟩ | ⟨_, _, rfl⟩
  · exact turnEffect_exec hexec
  · exact .refl _
  · exact .reset
  · exact .traffic [] _ _ _

/-- An invariant that every effect keeps, and that reads neither the agenda nor the sink's answer, is kept by every
step. -/
theorem kept_by_step {P : State → Prop}
    (hfetch : ∀ s ready rest, P s → P { s with sinkReady := ready, agenda := rest })
    (heffect : ∀ s t, P s → TurnEffect s t → P t) {s t : State} (hs : P s) (h : step s = .next t) : P t := by
  obtain ⟨ready, rest, e⟩ := afterFetch_same s
  have heff := turnEffect_step h
  rw [e] at heff
  exact heffect _ t (hfetch s ready rest hs) heff

/-! ### What the micro-steps change -/

/-- A finished byte goes into the line buffer at `BIDX`, a free one where it is tainted (93 U1). -/
theorem storeByte_eq (tainted : Bool) (v : Byte) (s : State) :
    ∃ b n, storeByte tainted v s = { s with lb := memPut s.lb s.bidx.toNat b, draws := n }
      ∧ (tainted = false → b = v) := by
  rcases storeByte_cases tainted v s with ⟨_, e⟩ | ⟨ht, e⟩
  · exact ⟨v, s.draws, e, fun _ => rfl⟩
  · exact ⟨_, _, e, fun hf => by simp [hf] at ht⟩

/-- 43 R135: what the filling of a byte changes. -/
theorem finishByte_eq (d : Nat) (s : State) :
    ∃ b n, finishByte d s =
        { s with
          lb := memPut s.lb s.bidx.toNat b, draws := n, bidx := s.bidx + 1, acc := 0#8, slot := 0#3, accTaint := false }
      ∧ ((s.accTaint || taints s) = false → b = putPixel d s.slot.toNat s.acc s.pixreg) := by
  obtain ⟨b, n, e, hb⟩ := storeByte_eq (s.accTaint || taints s) (putPixel d s.slot.toNat s.acc s.pixreg) s
  exact ⟨b, n, by rw [finishByte, e], hb⟩

/-- 43 R135: the copy count touches `PIXV`, `HREP` and `COL` only. -/
theorem nextCopy_eq (s : State) : ∃ v h c, nextCopy s = { s with pixv := v, hrep := h, col := c } := by
  rcases nextCopy_cases s with ⟨_, e⟩ | ⟨_, e⟩ <;> exact ⟨_, _, _, e⟩

/-- 43 R135: an INSERT that fills the byte touches the line buffer and the variables of PACK only. -/
theorem nextCopy_finishByte_eq (d : Nat) (s : State) :
    ∃ b n v h c, nextCopy (finishByte d s) =
      { s with
        lb := memPut s.lb s.bidx.toNat b, draws := n, bidx := s.bidx + 1, acc := 0#8, slot := 0#3, accTaint := false,
        pixv := v, hrep := h, col := c } := by
  obtain ⟨b, n, e, _⟩ := finishByte_eq d s
  obtain ⟨v, h, c, e'⟩ := nextCopy_eq (finishByte d s)
  exact ⟨b, n, v, h, c, by rw [e', e]⟩

/-- 43 R141: what EMIT goes on to touches `BIDX`, `VREP`, `ROW`, `PHASE` and `DONE` only. -/
theorem afterEmit_eq (s : State) :
    ∃ b v r p d, afterEmit s = { s with bidx := b, vrep := v, row := r, phase := p, done := d } := by
  rcases afterEmit_cases s with ⟨_, e⟩ | ⟨_, _, e⟩ | ⟨_, _, _, e⟩ | ⟨_, _, _, e⟩ <;> exact ⟨_, _, _, _, _, e⟩

/-- 43 R134 to R141: configuration, plan, parameters, `OVR`, `ERR` and the environment's side are left alone. -/
theorem MicroEffect.sameBesides {s t : State} (h : MicroEffect s t) : SameBesidesMicroStep s t := by
  cases h with
  | fetched => and_intros <;> rfl
  | filled =>
    obtain ⟨b, n, v, r, c, e⟩ := nextCopy_finishByte_eq s.depth.toNat s
    rw [e]; and_intros <;> rfl
  | extended =>
    obtain ⟨v, r, c, e⟩ := nextCopy_eq (extendByte s.depth.toNat s)
    rw [e]; and_intros <;> rfl
  | turned => and_intros <;> rfl
  | flushed =>
    obtain ⟨b, n, e, _⟩ := storeByte_eq s.accTaint s.acc s
    rw [e]; and_intros <;> rfl
  | emitted =>
    obtain ⟨b, v, r, p, d, e⟩ := afterEmit_eq (pushByte (lbRead s.lb s.bidx.toNat) s)
    rw [e]; and_intros <;> rfl

/-- 20 R43: a micro-step leaves the line buffer as it is or stores one byte at an index that exists. -/
theorem MicroEffect.lb_eq {s t : State} (h : MicroEffect s t) :
    t.lb = s.lb ∨ ∃ b, s.bidx.toNat < s.lbBytes ∧ t.lb = memPut s.lb s.bidx.toNat b := by
  cases h with
  | fetched => exact .inl rfl
  | filled _ _ _ _ _ hbidx =>
    obtain ⟨b, n, v, r, c, e⟩ := nextCopy_finishByte_eq s.depth.toNat s
    exact .inr ⟨b, hbidx, by rw [e]⟩
  | extended =>
    obtain ⟨v, r, c, e⟩ := nextCopy_eq (extendByte s.depth.toNat s)
    exact .inl (by rw [e, extendByte])
  | turned => exact .inl rfl
  | flushed _ _ _ _ _ hbidx =>
    obtain ⟨b, n, e, _⟩ := storeByte_eq s.accTaint s.acc s
    exact .inr ⟨b, hbidx, by rw [e]; rfl⟩
  | emitted =>
    obtain ⟨b, v, r, p, d, e⟩ := afterEmit_eq (pushByte (lbRead s.lb s.bidx.toNat) s)
    exact .inl (by rw [e]; rfl)

/-! ### The commands and the line buffer -/

/-- The line buffer and its size are the same. -/
abbrev SameBuffer (s t : State) : Prop := t.lbBytes = s.lbBytes ∧ t.lb = s.lb

theorem sameBuffer_raiseError (code : ErrCode) (s : State) : SameBuffer s (raiseError code s) := by
  cases h : code.isPlanner
  · rw [raiseError_other h]; exact ⟨rfl, rfl⟩
  · rw [raiseError_planner h]; exact ⟨rfl, rfl⟩

theorem sameBuffer_startFrame (s : State) : SameBuffer s (startFrame s) := by
  by_cases h : s.outH = 0#32
  · rw [startFrame_empty h]; exact ⟨rfl, rfl⟩
  · rw [startFrame_frame h]; exact ⟨rfl, rfl⟩

theorem configStore_eq (idx : BitVec 4) (v : Half) (s : State) :
    ∃ p w h c, configStore idx v s = { s with palLen := p, srcW := w, srcH := h, scale := c } := by
  unfold configStore
  split <;> exact ⟨_, _, _, _, rfl⟩

/-- 20 R43: only a micro-step stores into the line buffer, one byte at an index that exists. -/
theorem TurnEffect.buffer {s t : State} (h : TurnEffect s t) :
    t.lbBytes = s.lbBytes ∧ (t.lb = s.lb ∨ ∃ b, s.bidx.toNat < s.lbBytes ∧ t.lb = memPut s.lb s.bidx.toNat b) := by
  have kept {t : State} (hsame : SameBuffer s t) : t.lbBytes = s.lbBytes
      ∧ (t.lb = s.lb ∨ ∃ b, s.bidx.toNat < s.lbBytes ∧ t.lb = memPut s.lb s.bidx.toNat b) :=
    ⟨hsame.1, .inl hsame.2⟩
  cases h with
  | traffic => exact kept ⟨rfl, rfl⟩
  | dropped => exact kept ⟨rfl, rfl⟩
  | badCmd => exact kept (sameBuffer_raiseError _ s)
  | configured _ idx v =>
    obtain ⟨p, w, h, c, e⟩ := configStore_eq idx v s
    exact kept (by rw [e]; exact ⟨rfl, rfl⟩)
  | failed => exact kept (sameBuffer_raiseError _ (clearFlags s))
  | planned => exact kept ⟨rfl, rfl⟩
  | noPlan => exact kept (sameBuffer_raiseError _ (clearFlags s))
  | started => exact kept (sameBuffer_startFrame (clearFlags s))
  | rendered => exact kept (sameBuffer_startFrame (commitPlan _ _ _ _ (clearFlags s)))
  | abort => exact kept ⟨rfl, rfl⟩
  | reset => exact kept ⟨rfl, rfl⟩
  | micro h =>
    obtain ⟨_, _, _, _, ⟨hbytes, _⟩, _⟩ := h.sameBesides
    exact ⟨hbytes, h.lb_eq⟩

/-! ### The line buffer's form (10 R29) -/

theorem TurnEffect.lineBufferInv {s t : State} (h : TurnEffect s t) (hs : LineBufferInv s) : LineBufferInv t := by
  obtain ⟨hwf, hbelow⟩ := hs
  obtain ⟨hbytes, hlb | ⟨b, hbidx, hlb⟩⟩ := h.buffer
  · exact ⟨by rw [hlb]; exact hwf, by rw [hbytes, hlb]; exact hbelow⟩
  · exact ⟨by rw [hlb]; exact memPut_wf s.lb _ b hwf, by rw [hbytes, hlb]; exact memPut_below s.lb _ _ b hbidx hbelow⟩

/-- Settles O44: a turn stores at most one byte, at an index below `LB_BYTES`. -/
theorem lineBufferFormIsKept : Obligations.LineBufferFormIsKept := fun _ _ =>
  kept_by_step (P := LineBufferInv) (fun _ _ _ hs => hs) (fun _ _ hs h => h.lineBufferInv hs)

/-! ### The record of errors (60 R182) -/

theorem historyInv_of_same {s t : State} (herr : t.err = s.err) (hovr : t.ovr = s.ovr)
    (hseen : t.faultSeen = s.faultSeen) (hs : HistoryInv s) : HistoryInv t := by
  obtain ⟨h₁, h₂⟩ := hs
  exact ⟨by rw [herr, hseen]; exact h₁, by rw [hovr, hseen]; exact h₂⟩

/-- After an error or a drop the flag is set, and it covers everything. -/
theorem historyInv_of_seen {s : State} (h : s.faultSeen = true) : HistoryInv s := ⟨fun _ => h, fun _ => h⟩

/-- 43 R126: flags that are clear need no covering. -/
theorem historyInv_of_clear {s : State} (herr : s.err = .noError) (hovr : s.ovr = false) : HistoryInv s :=
  ⟨fun h => absurd herr h, fun h => by simp [hovr] at h⟩

theorem historyInv_raiseError (code : ErrCode) (s : State) : HistoryInv (raiseError code s) := by
  cases h : code.isPlanner
  · rw [raiseError_other h]; exact historyInv_of_seen rfl
  · rw [raiseError_planner h]; exact historyInv_of_seen rfl

theorem historyInv_startFrame {s : State} (hs : HistoryInv s) : HistoryInv (startFrame s) := by
  by_cases h : s.outH = 0#32
  · rw [startFrame_empty h]; exact hs
  · rw [startFrame_frame h]; exact hs

theorem TurnEffect.historyInv {s t : State} (h : TurnEffect s t) (hs : HistoryInv s) : HistoryInv t := by
  have hclear : HistoryInv (clearFlags s) := historyInv_of_clear rfl rfl
  cases h with
  | traffic => exact hs
  | dropped => exact historyInv_of_seen rfl
  | badCmd => exact historyInv_raiseError _ s
  | configured _ idx v =>
    obtain ⟨p, w, h, c, e⟩ := configStore_eq idx v s
    rw [e]; exact hs
  | failed => exact historyInv_raiseError _ _
  | planned => exact hclear
  | noPlan => exact historyInv_raiseError _ _
  | started => exact historyInv_startFrame hclear
  | rendered => exact historyInv_startFrame (s := commitPlan _ _ _ _ (clearFlags s)) hclear
  | abort => exact historyInv_of_clear rfl rfl
  | reset => exact historyInv_of_clear rfl rfl
  | micro h =>
    obtain ⟨_, _, hovr, herr, _, _, _, hseen⟩ := h.sameBesides
    exact historyInv_of_same herr hovr hseen hs

/-! ### The plan (10 R22) -/

theorem planInv_of_same {s t : State} (hbytes : t.lbBytes = s.lbBytes) (hconfig : SameConfig s t)
    (hplan : SamePlan s t) (hs : PlanInv s) : PlanInv t := by
  obtain ⟨hpal, hw, hh, hc⟩ := hconfig
  obtain ⟨hd, how, hoh, hbps, hvalid⟩ := hplan
  simpa only [PlanInv, PlanHolds, PlanCleared, hbytes, hpal, hw, hh, hc, hd, how, hoh, hbps, hvalid] using hs

theorem planInv_dropPlan (s : State) : PlanInv (dropPlan s) := ⟨nofun, fun _ => ⟨rfl, rfl, rfl, rfl⟩⟩

theorem planInv_raiseError {s : State} (code : ErrCode) (hs : PlanInv s) : PlanInv (raiseError code s) := by
  cases h : code.isPlanner
  · rw [raiseError_other h]; exact hs
  · rw [raiseError_planner h]; exact planInv_dropPlan _

/-- 41 R100: a plan the planner answers is the plan of the configuration. -/
theorem planHolds_commitPlan {s : State} {d ow oh n : Nat} (h : planOf s = .plan d ow oh n) :
    PlanHolds (commitPlan d ow oh n s) := by
  rcases planner_cases s.lbBytes s.palLen.toNat s.srcW.toNat s.srcH.toNat s.scale.toNat with
    ⟨_, e⟩ | ⟨_, e⟩ | ⟨_, _, _, e⟩ | ⟨_, _, _, _, _, e⟩ | ⟨hmin, hmax, hw, hc, hfit, e⟩ <;>
    rw [planOf, e] at h <;> cases h
  have hpos : 0 < s.srcW.toNat * s.scale.toNat := Nat.mul_pos (Nat.pos_of_ne_zero hw) (Nat.pos_of_ne_zero hc)
  have hone := (Nat.zero_le _).trans_lt ((isDepth_depthOf s.palLen.toNat).div_ppb_lt_bytesPerLine hpos)
  have hdepth := Nat.mod_eq_of_lt (show depthOf s.palLen.toNat < 2 ^ 4 from depthOf_lt_16 _)
  have houtW := Nat.mod_eq_of_lt (half_mul_lt s.srcW s.scale)
  have houtH := Nat.mod_eq_of_lt (half_mul_lt s.srcH s.scale)
  have hbps := Nat.mod_eq_of_lt ((bytesPerLine_le s.palLen.toNat _).trans_lt (half_mul_lt s.srcW s.scale))
  simp only [PlanHolds, commitPlan_fields, BitVec.toNat_ofNat, hdepth, houtW, houtH, hbps]
  exact ⟨hmin, hmax, Nat.pos_of_ne_zero hw, Nat.pos_of_ne_zero hc, trivial, trivial, trivial, trivial, hone, hfit⟩

theorem planInv_commitPlan {s : State} {d ow oh n : Nat} (h : planOf s = .plan d ow oh n) :
    PlanInv (commitPlan d ow oh n s) := ⟨fun _ => planHolds_commitPlan h, nofun⟩

theorem planInv_startFrame {s : State} (hs : PlanInv s) : PlanInv (startFrame s) := by
  by_cases h : s.outH = 0#32
  · rw [startFrame_empty h]; exact hs
  · rw [startFrame_frame h]; exact hs

theorem TurnEffect.planInv {s t : State} (h : TurnEffect s t) (hs : PlanInv s) : PlanInv t := by
  have hclear : PlanInv (clearFlags s) := hs
  cases h with
  | traffic => exact hs
  | dropped => exact hs
  | badCmd => exact planInv_raiseError _ hs
  | configured _ idx v => exact planInv_dropPlan _
  | failed => exact planInv_raiseError _ hclear
  | planned _ hplan => exact planInv_commitPlan (s := clearFlags s) hplan
  | noPlan => exact planInv_raiseError _ hclear
  | started => exact planInv_startFrame hclear
  | rendered _ hplan => exact planInv_startFrame (planInv_commitPlan (s := clearFlags s) hplan)
  | abort => exact hs
  | reset => exact planInv_dropPlan _
  | micro h =>
    obtain ⟨hconfig, hplan, _, _, ⟨hbytes, _⟩, _⟩ := h.sameBesides
    exact planInv_of_same hbytes hconfig hplan hs

theorem planInv_reset : PlanInv State.reset := ⟨nofun, fun _ => ⟨rfl, rfl, rfl, rfl⟩⟩

/-- Settles O43: the plan registers are written only by a plan that succeeds, and cleared by whatever changes what the
plan was made of. -/
theorem planInvariantIsKept : Obligations.PlanInvariantIsKept :=
  ⟨planInv_reset, fun _ _ => kept_by_step (P := PlanInv) (fun _ _ _ hs => hs) (fun _ _ hs h => h.planInv hs)⟩

end Sys2Proof.Machine
end

section
/-! PROOF. The sequencer's invariant (10 R26, R28). A scanline is packed pixel by pixel: `Taking` counts the pixels
taken, `Packs px s` says that the line buffer, `BIDX`, `SLOT` and `ACC` are the packed form of the expanded pixels `px`,
and an INSERT turns `Packs px` into `Packs (px ++ [PIXREG])`. EOL makes of it the whole line (`HoldsLine`), which EMIT
reads. -/

namespace Sys2Proof.Machine

/-! ### The parts of the invariant -/

/-- Nothing of a scanline is packed or emitted: every sequencer variable but `ROW`, `PIXREG` and `PHASE` is 0. -/
abbrev AtLineStart (s : State) : Prop :=
  s.col = 0#16 ∧ s.hrep = 0#16 ∧ s.vrep = 0#16 ∧ s.slot = 0#3 ∧ s.bidx = 0#32 ∧ s.acc = 0#8 ∧ s.pixv = false
    ∧ s.accTaint = false

/-- Every sequencer variable but `PIXREG` and `PHASE` is 0 (10 R26). -/
abbrev AtRest (s : State) : Prop := s.row = 0#16 ∧ AtLineStart s

/-- How far the pixels of the scanline `ROW` have been taken and copied (10 R28 (b), (d)). -/
structure Taking (s : State) : Prop where
  col_le : s.col.toNat ≤ s.srcW.toNat
  held : s.pixv = true →
    s.col.toNat < s.srcW.toNat ∧ s.hrep.toNat < s.scale.toNat ∧ s.taken.getLast? = some s.pixreg
  free : s.pixv = false → s.hrep = 0#16
  length : s.taken.length = s.row.toNat * s.srcW.toNat + s.col.toNat + if s.pixv then 1 else 0

/-- `LB`, `BIDX`, `SLOT` and `ACC` are the packed form of the expanded pixels `px` (10 R28 (b)). -/
structure Packs (px : List Byte) (s : State) : Prop where
  bidx : s.bidx.toNat = px.length / ppb s.depth.toNat
  slot : s.slot.toNat = px.length % ppb s.depth.toNat
  acc : s.acc = lineByte s.depth.toNat px s.bidx.toNat
  written : ∀ j < s.bidx.toNat, memGet s.lb j ≠ none
  taint : s.accTaint = true → s.oorMode = .anyValue
  determined : Determined s →
    s.accTaint = false ∧ ∀ j < s.bidx.toNat, memGet s.lb j = some (lineByte s.depth.toNat px j)

/-- `LB` holds the packed scanline of the expanded pixels `px`, all its `BPS` bytes (10 R28 (c)). -/
structure HoldsLine (px : List Byte) (s : State) : Prop where
  written : ∀ j < s.bps.toNat, memGet s.lb j ≠ none
  determined : Determined s → ∀ j < s.bps.toNat, memGet s.lb j = some (lineByte s.depth.toNat px j)

/-- `PackInv` in these parts. -/
structure Packing (s : State) : Prop where
  plan : s.planValid = true
  row_lt : s.row.toNat < s.srcH.toNat
  vrep : s.vrep = 0#16
  taking : Taking s
  packs : Packs (insertedPixels s) s
  emittedLength : s.emitted.length = s.row.toNat * s.scale.toNat * s.bps.toNat
  emitted : Determined s → s.emitted = earlierScanlines s

/-- 10 R28 (b): `k = COL * SCALE + HREP` is how many expanded pixels are in. -/
theorem Taking.length_insertedPixels {s : State} (h : Taking s) : (insertedPixels s).length = insertedCount s := by
  have hrow : s.col.toNat ≤ s.taken.length - s.row.toNat * s.srcW.toNat := by rw [h.length]; omega
  simp [insertedPixels, insertedCount, hrow]

theorem packing_iff (s : State) : Packing s ↔ PackInv s := by
  constructor
  · intro h
    have hlen := h.taking.length_insertedPixels
    exact ⟨h.plan, h.row_lt, h.vrep, h.taking.col_le, h.taking.held, h.taking.free, hlen ▸ h.packs.bidx,
      hlen ▸ h.packs.slot, h.packs.acc, h.packs.written, h.taking.length, h.emittedLength, h.packs.taint,
      fun hdet => ⟨(h.packs.determined hdet).1, (h.packs.determined hdet).2, h.emitted hdet⟩⟩
  · rintro ⟨hplan, hrow, hvrep, hcol, hheld, hfree, hbidx, hslot, hacc, hwritten, hlength, hemitted, htaint, hdet⟩
    have htaking : Taking s := ⟨hcol, hheld, hfree, hlength⟩
    have hlen := htaking.length_insertedPixels
    exact
      { plan := hplan, row_lt := hrow, vrep := hvrep, taking := htaking, emittedLength := hemitted
        packs := ⟨hlen ▸ hbidx, hlen ▸ hslot, hacc, hwritten, htaint, fun h => ⟨(hdet h).1, (hdet h).2.1⟩⟩
        emitted := fun h => (hdet h).2.2 }

theorem sequencerInv_atRest {s : State} (hphase : s.phase = .idle) (hrest : AtRest s)
    (hdone : s.done = true → s.planValid = false) : SequencerInv s := by
  obtain ⟨hrow, hcol, hhrep, hvrep, hslot, hbidx, hacc, hpixv, htaint⟩ := hrest
  refine ⟨fun _ => ⟨hrow, hcol, hhrep, hvrep, hslot, hbidx, hacc, hpixv, htaint, fun hd hp => ?_⟩, ?_, ?_⟩
  · rw [hdone hd] at hp; cases hp
  · rw [hphase]; nofun
  · rw [hphase]; nofun

theorem sequencerInv_idle {s : State} (hphase : s.phase = .idle) (h : IdleInv s) : SequencerInv s :=
  ⟨fun _ => h, by rw [hphase]; nofun, by rw [hphase]; nofun⟩

theorem sequencerInv_packing {s : State} (hphase : s.phase = .pack) (h : Packing s) : SequencerInv s :=
  ⟨by rw [hphase]; nofun, fun _ => (packing_iff s).1 h, by rw [hphase]; nofun⟩

theorem sequencerInv_replay {s : State} (hphase : s.phase = .replay) (h : ReplayInv s) : SequencerInv s :=
  ⟨by rw [hphase]; nofun, by rw [hphase]; nofun, fun _ => h⟩

theorem SequencerInv.atRest {s : State} (h : SequencerInv s) (hphase : s.phase = .idle) : AtRest s := by
  obtain ⟨hrow, hcol, hhrep, hvrep, hslot, hbidx, hacc, hpixv, htaint, _⟩ := h.1 hphase
  exact ⟨hrow, hcol, hhrep, hvrep, hslot, hbidx, hacc, hpixv, htaint⟩

theorem SequencerInv.packing {s : State} (h : SequencerInv s) (hphase : s.phase = .pack) : Packing s :=
  (packing_iff s).2 (h.2.1 hphase)

theorem PlanHolds.isDepth {s : State} (h : PlanHolds s) : IsDepth s.depth.toNat := by
  obtain ⟨_, _, _, _, hdepth, _⟩ := h
  exact hdepth ▸ isDepth_depthOf _

theorem PlanHolds.bps_eq {s : State} (h : PlanHolds s) :
    s.bps.toNat = bytesPerLine s.depth.toNat (s.srcW.toNat * s.scale.toNat) := by
  obtain ⟨_, _, _, _, _, houtW, _, hbps, _⟩ := h
  rw [hbps, houtW]

/-! ### A scanline begins -/

/-- With no pixel in, everything is 0. -/
theorem packs_nil {s : State} (hbidx : s.bidx = 0#32) (hslot : s.slot = 0#3) (hacc : s.acc = 0#8)
    (htaint : s.accTaint = false) : Packs [] s where
  bidx := by simp [hbidx]
  slot := by simp [hslot]
  acc := by rw [hacc, lineByte_past (Nat.zero_le _)]
  written j hj := by simp [hbidx] at hj
  taint h := by simp [htaint] at h
  determined _ := ⟨htaint, fun j hj => by simp [hbidx] at hj⟩

/-- The first byte of a scanline is to be packed, and the scanlines before it are out. -/
theorem packing_lineStart {s : State} (hplan : s.planValid = true) (hrow : s.row.toNat < s.srcH.toNat)
    (hstart : AtLineStart s) (htaken : s.taken.length = s.row.toNat * s.srcW.toNat)
    (hemitted : s.emitted.length = s.row.toNat * s.scale.toNat * s.bps.toNat)
    (hframe : Determined s → s.emitted = earlierScanlines s) : Packing s := by
  obtain ⟨hcol, hhrep, hvrep, hslot, hbidx, hacc, hpixv, htaint⟩ := hstart
  have hnone : insertedPixels s = [] := by simp [insertedPixels, hcol, hhrep, expandRow]
  exact
    { plan := hplan
      row_lt := hrow
      vrep := hvrep
      taking :=
        { col_le := by simp [hcol]
          held := by rw [hpixv]; nofun
          free := fun _ => hhrep
          length := by simp [hcol, hpixv, htaken] }
      packs := hnone ▸ packs_nil hbidx hslot hacc htaint
      emittedLength := hemitted
      emitted := hframe }

/-- 43 R128: RAST from its second test on; without rows the frame is empty and done. -/
theorem sequencerInv_startFrame {s : State} (hphase : s.phase = .idle) (hrest : AtRest s) (hplan : s.planValid = true)
    (hinv : PlanInv s) : SequencerInv (startFrame s) := by
  obtain ⟨_, _, _, hscale, _, _, houtH, _⟩ := hinv.1 hplan
  by_cases h : s.outH = 0#32
  · rw [startFrame_empty h]
    have hsrcH : s.srcH.toNat = 0 := by
      rw [h] at houtH
      exact (Nat.mul_eq_zero.1 houtH.symm).resolve_right (by omega)
    obtain ⟨hrow, hcol, hhrep, hvrep, hslot, hbidx, hacc, hpixv, htaint⟩ := hrest
    refine sequencerInv_idle hphase ⟨hrow, hcol, hhrep, hvrep, hslot, hbidx, hacc, hpixv, htaint, fun _ _ => ?_⟩
    simp [h, hsrcH]
  · rw [startFrame_frame h]
    have hsrcH : 0 < s.srcH.toNat := Nat.pos_of_ne_zero fun hz => h (BitVec.eq_of_toNat_eq (by simp [houtH, hz]))
    exact sequencerInv_packing rfl (packing_lineStart hplan hsrcH (by and_intros <;> rfl) (by simp) (by simp)
      fun _ => rfl)

/-! ### FETCH -/

/-- A pixel taken later is no obstacle: what was determined with it was so before. -/
theorem determined_of_takePixel {p : Byte} {rest : List Byte} {s : State} (h : Determined (takePixel p rest s)) :
    Determined s :=
  h.imp id fun hall q hq => hall q (List.mem_append_left _ hq)

/-- 43 R134: the pixel taken is none of the inserted ones yet. -/
theorem Packing.takePixel {s : State} (h : Packing s) (hpixv : s.pixv = false) (hcol : s.col.toNat < s.srcW.toNat)
    (hscale : 1 ≤ s.scale.toNat) (p : Byte) (rest : List Byte) : Packing (takePixel p rest s) := by
  have hhrep := h.taking.free hpixv
  have hlength : s.taken.length = s.row.toNat * s.srcW.toNat + s.col.toNat := by simpa [hpixv] using h.taking.length
  have hinserted : insertedPixels (Machine.takePixel p rest s) = insertedPixels s := by
    simp only [insertedPixels, takePixel_fields, hhrep]
    rw [List.drop_append_of_le_length (by omega), List.take_append_of_le_length (by simp; omega)]
    rfl
  have hearlier : earlierScanlines (Machine.takePixel p rest s) = earlierScanlines s :=
    frame_append (show s.srcW.toNat * s.row.toNat ≤ s.taken.length by rw [hlength, Nat.mul_comm]; omega) [p] _ _
  exact
    { plan := h.plan
      row_lt := h.row_lt
      vrep := h.vrep
      taking :=
        { col_le := h.taking.col_le
          held := fun _ => ⟨hcol, hscale, List.getLast?_concat⟩
          free := nofun
          length := by simp [hlength] }
      packs := by
        rw [hinserted]
        exact ⟨h.packs.bidx, h.packs.slot, h.packs.acc, h.packs.written, h.packs.taint,
          fun hdet => h.packs.determined (determined_of_takePixel hdet)⟩
      emittedLength := h.emittedLength
      emitted := fun hdet => by rw [hearlier]; exact h.emitted (determined_of_takePixel hdet) }

/-! ### INSERT -/

/-- Where the bytes are determined, the pixel held does not taint its byte (93 U1). -/
theorem Taking.taints_eq_false {s : State} (h : Taking s) (hpixv : s.pixv = true) (hdet : Determined s) :
    taints s = false := by
  obtain ⟨_, _, hlast⟩ := h.held hpixv
  rcases hdet with htrunc | hall
  · exact taints_truncate htrunc
  · exact taints_inPalette (hall _ (List.mem_of_getLast? hlast))

/-- Only in mode any value is a byte tainted. -/
theorem anyValue_of_taints {s : State} (h : taints s = true) : s.oorMode = .anyValue := by
  simp only [taints, Bool.and_eq_true, decide_eq_true_eq] at h
  exact h.1

/-- A byte stored at the end of a written prefix prolongs it. -/
theorem memGet_memPut_lt_succ {P : Nat → Option Byte → Prop} {m : Memory} {a : Nat} {b : Byte}
    (hold : ∀ j < a, P j (memGet m j)) (hnew : P a (some b)) : ∀ j < a + 1, P j (memGet (memPut m a b) j) := by
  intro j hj
  rcases Nat.lt_succ_iff_lt_or_eq.1 hj with hlt | rfl
  · rw [memGet_memPut_ne m a j b (by omega)]; exact hold j hlt
  · rw [memGet_memPut_same]; exact hnew

/-- `BIDX` full bytes and `SLOT` pixels more. -/
theorem Packs.length_eq {px : List Byte} {s : State} (h : Packs px s) :
    px.length = s.bidx.toNat * ppb s.depth.toNat + s.slot.toNat := by
  rw [h.bidx, h.slot, Nat.div_add_mod']

/-- The bytes before `BIDX` are full, so another pixel leaves them alone. -/
theorem Packs.lineByte_append {px : List Byte} {s : State} (h : Packs px s) {j : Nat} (hj : j < s.bidx.toNat)
    (more : List Byte) : lineByte s.depth.toNat (px ++ more) j = lineByte s.depth.toNat px j := by
  apply Machine.lineByte_append
  calc (j + 1) * ppb s.depth.toNat ≤ s.bidx.toNat * ppb s.depth.toNat := Nat.mul_le_mul_right _ hj
    _ ≤ px.length := by rw [h.length_eq]; omega

/-- 43 R135, first `if`, the byte full: it is stored, and nothing of the next one is there yet. -/
theorem Packs.finishByte {px : List Byte} {s : State} (h : Packs px s) (hd : IsDepth s.depth.toNat)
    (hfull : s.slot.toNat + 1 = ppb s.depth.toNat) (hbidx : s.bidx.toNat < s.bps.toNat)
    (htaint : Determined s → taints s = false) :
    Packs (px ++ [s.pixreg]) (finishByte s.depth.toNat s) := by
  obtain ⟨b, n, e, hb⟩ := finishByte_eq s.depth.toNat s
  have hlen := h.length_eq
  have hnew : (px ++ [s.pixreg]).length = (s.bidx.toNat + 1) * ppb s.depth.toNat := by
    rw [List.length_append, List.length_singleton, hlen, Nat.succ_mul]; omega
  have hnext : (s.bidx + 1).toNat = s.bidx.toNat + 1 := by bv_omega
  rw [e]
  exact
    { bidx := by simp only [hnext, hnew, Nat.mul_div_cancel _ hd.ppb_pos]
      slot := by simp only [hnew, Nat.mul_mod_left]; rfl
      acc := by simp only [hnext]; rw [lineByte_past hnew.le]
      written := by
        simp only [hnext]
        exact memGet_memPut_lt_succ (P := fun _ o => o ≠ none) h.written nofun
      taint := nofun
      determined := fun hdet => by
        obtain ⟨hacc, hbytes⟩ := h.determined hdet
        refine ⟨rfl, ?_⟩
        simp only [hnext]
        refine memGet_memPut_lt_succ (P := fun j o => o = some (lineByte s.depth.toNat (px ++ [s.pixreg]) j))
          (fun j hj => ?_) ?_
        · rw [hbytes j hj, h.lineByte_append hj]
        · rw [lineByte_snoc hd (by omega) hlen, ← h.acc, hb (by simp [hacc, htaint hdet])] }

/-- 43 R135, first `if`, the byte not full: the pixel goes into the next slot of `ACC`. -/
theorem Packs.extendByte {px : List Byte} {s : State} (h : Packs px s) (hd : IsDepth s.depth.toNat)
    (hroom : s.slot.toNat + 1 < ppb s.depth.toNat) (htaint : Determined s → taints s = false) :
    Packs (px ++ [s.pixreg]) (extendByte s.depth.toNat s) := by
  have hlen := h.length_eq
  have hnew : (px ++ [s.pixreg]).length = s.slot.toNat + 1 + ppb s.depth.toNat * s.bidx.toNat := by
    rw [List.length_append, List.length_singleton, hlen, Nat.mul_comm]; omega
  have hppb : ppb s.depth.toNat ≤ 8 := Nat.div_le_self 8 _
  have hnext : (s.slot + 1).toNat = s.slot.toNat + 1 := by bv_omega
  exact
    { bidx := by
        simp only [Machine.extendByte]
        rw [hnew, Nat.add_mul_div_left _ _ hd.ppb_pos, Nat.div_eq_of_lt hroom, Nat.zero_add]
      slot := by
        simp only [Machine.extendByte, hnext]
        rw [hnew, Nat.add_mul_mod_self_left, Nat.mod_eq_of_lt hroom]
      acc := by
        simp only [Machine.extendByte]
        rw [lineByte_snoc hd (by omega) hlen, ← h.acc]
      written := h.written
      taint := fun ht => (Bool.or_eq_true_iff.1 ht).elim h.taint anyValue_of_taints
      determined := fun hdet => by
        obtain ⟨hacc, hbytes⟩ := h.determined hdet
        refine ⟨by simp [Machine.extendByte, hacc, htaint hdet], fun j hj => ?_⟩
        simp only [Machine.extendByte] at hj ⊢
        rw [hbytes j hj, h.lineByte_append hj] }

/-- The copy count is no part of the packed bytes. -/
theorem Packs.nextCopy {px : List Byte} {s : State} (h : Packs px s) : Packs px (nextCopy s) := by
  obtain ⟨v, r, c, e⟩ := nextCopy_eq s
  rw [e]
  exact ⟨h.bidx, h.slot, h.acc, h.written, h.taint, h.determined⟩

/-- 43 R135, second `if`: one more copy of the pixel held is in, and after the last one the pixel is done with. -/
theorem Taking.nextCopy {s : State} (h : Taking s) (hpixv : s.pixv = true) :
    Taking (nextCopy s) ∧ insertedPixels (nextCopy s) = insertedPixels s ++ [s.pixreg] := by
  obtain ⟨hcol, hhrep, hlast⟩ := h.held hpixv
  have hlength := h.length
  simp only [hpixv, if_true] at hlength
  rcases nextCopy_cases s with ⟨hend, e⟩ | ⟨hmore, e⟩ <;> rw [e]
  · have hnext : (s.col + 1).toNat = s.col.toNat + 1 := by bv_omega
    refine ⟨⟨?_, nofun, fun _ => rfl, ?_⟩, ?_⟩
    · simp only [hnext]; exact hcol
    · simp only [hnext]; exact hlength
    · obtain ⟨ys, hys⟩ := List.getLast?_eq_some_iff.1 hlast
      have hlen : ys.length = s.row.toNat * s.srcW.toNat + s.col.toNat := by simpa [hys] using hlength
      have hrow : (ys.drop (s.row.toNat * s.srcW.toNat)).length = s.col.toNat := by simp [hlen]
      simp only [insertedPixels, hnext, hys, ← hend]
      rw [List.drop_append_of_le_length (by omega), List.take_of_length_le (by simp [hlen]),
        List.take_append_of_le_length hrow.ge, List.take_of_length_le hrow.le, expandRow_append, expandRow_singleton,
        List.replicate_succ']
      simp
  · have hnext : (s.hrep + 1).toNat = s.hrep.toNat + 1 := by bv_omega
    refine ⟨⟨h.col_le, fun _ => ⟨hcol, ?_, hlast⟩, ?_, h.length⟩, ?_⟩
    · simp only [hnext]; omega
    · simp only [hpixv]; nofun
    · simp only [insertedPixels, hnext, List.replicate_succ', List.append_assoc]

/-- An INSERT, given what its first `if` makes of the bytes: `u` is `s` with another byte begun or grown. -/
theorem Packing.insert {s u : State} (h : Packing s) (hpixv : s.pixv = true)
    (hu : ∃ b n i a sl ta,
      u = { s with lb := b, draws := n, bidx := i, acc := a, slot := sl, accTaint := ta })
    (hpacks : Packs (insertedPixels s ++ [s.pixreg]) u) : Packing (nextCopy u) := by
  obtain ⟨b, n, i, a, sl, ta, rfl⟩ := hu
  have htaking : Taking { s with lb := b, draws := n, bidx := i, acc := a, slot := sl, accTaint := ta } :=
    ⟨h.taking.col_le, h.taking.held, h.taking.free, h.taking.length⟩
  obtain ⟨htaking', hinserted⟩ := htaking.nextCopy hpixv
  have hpacks' := hpacks.nextCopy
  rw [show insertedPixels s ++ [s.pixreg] = _ from hinserted.symm] at hpacks'
  obtain ⟨v, r, c, e⟩ :=
    nextCopy_eq { s with lb := b, draws := n, bidx := i, acc := a, slot := sl, accTaint := ta }
  rw [e] at htaking' hpacks' ⊢
  exact ⟨h.plan, h.row_lt, h.vrep, htaking', hpacks', h.emittedLength, h.emitted⟩

/-- 10 R28: with a pixel held there is another byte of the scanline to come. -/
theorem Packing.bidx_lt_bps {s : State} (h : Packing s) (hplan : PlanHolds s) (hpixv : s.pixv = true) :
    s.bidx.toNat < s.bps.toNat := by
  obtain ⟨hcol, hhrep, _⟩ := h.taking.held hpixv
  rw [hplan.bps_eq, h.packs.bidx, h.taking.length_insertedPixels]
  apply hplan.isDepth.div_ppb_lt_bytesPerLine
  calc s.col.toNat * s.scale.toNat + s.hrep.toNat < s.col.toNat * s.scale.toNat + s.scale.toNat := by omega
    _ = (s.col.toNat + 1) * s.scale.toNat := (Nat.succ_mul _ _).symm
    _ ≤ s.srcW.toNat * s.scale.toNat := Nat.mul_le_mul_right _ hcol

/-! ### EOL -/

/-- With all its pixels in, the scanline has `OUT_W` of them. -/
theorem Packing.length_insertedPixels_eol {s : State} (h : Packing s) (hpixv : s.pixv = false) (hcol : s.col = s.srcW) :
    (insertedPixels s).length = s.srcW.toNat * s.scale.toNat := by
  rw [h.taking.length_insertedPixels, insertedCount, hcol, h.taking.free hpixv]
  rfl

/-- And they are the expanded pixels of source scanline `ROW`. -/
theorem Packing.insertedPixels_eol {s : State} (h : Packing s) (hpixv : s.pixv = false) (hcol : s.col = s.srcW) :
    insertedPixels s = expandRow s.scale.toNat (sourceRow s.taken s.srcW.toNat s.row.toNat) := by
  rw [insertedPixels, hcol, h.taking.free hpixv]
  simp [sourceRow]

/-- 43 R140: with no byte begun the scanline filled its bytes. -/
theorem Packing.bps_eq_bidx {s : State} (h : Packing s) (hplan : PlanHolds s) (hpixv : s.pixv = false)
    (hcol : s.col = s.srcW) (hslot : s.slot = 0#3) : s.bps.toNat = s.bidx.toNat := by
  have hlen := h.length_insertedPixels_eol hpixv hcol
  have hmod : s.srcW.toNat * s.scale.toNat % ppb s.depth.toNat = 0 := by
    rw [← hlen, ← h.packs.slot, hslot]; rfl
  rw [hplan.bps_eq, hplan.isDepth.bytesPerLine_of_mod_eq_zero hmod, h.packs.bidx, hlen]

/-- 43 R140: a byte begun is the scanline's last. -/
theorem Packing.bps_eq_bidx_succ {s : State} (h : Packing s) (hplan : PlanHolds s) (hpixv : s.pixv = false)
    (hcol : s.col = s.srcW) (hslot : s.slot ≠ 0#3) : s.bps.toNat = s.bidx.toNat + 1 := by
  have hlen := h.length_insertedPixels_eol hpixv hcol
  have hmod : s.srcW.toNat * s.scale.toNat % ppb s.depth.toNat ≠ 0 := by
    rw [← hlen, ← h.packs.slot]
    exact fun hz => hslot (BitVec.eq_of_toNat_eq hz)
  rw [hplan.bps_eq, hplan.isDepth.bytesPerLine_of_mod_ne_zero hmod, h.packs.bidx, hlen]

theorem Packing.holdsLine {s : State} (h : Packing s) (hplan : PlanHolds s) (hpixv : s.pixv = false)
    (hcol : s.col = s.srcW) (hslot : s.slot = 0#3) : HoldsLine (insertedPixels s) s := by
  have hbps := h.bps_eq_bidx hplan hpixv hcol hslot
  exact ⟨by rw [hbps]; exact h.packs.written, fun hdet => by rw [hbps]; exact (h.packs.determined hdet).2⟩

/-- 43 R140: the flush of a byte begun completes the line. -/
theorem Packing.holdsLine_storeByte {s : State} (h : Packing s) (hplan : PlanHolds s) (hpixv : s.pixv = false)
    (hcol : s.col = s.srcW) (hslot : s.slot ≠ 0#3) :
    HoldsLine (insertedPixels s) (storeByte s.accTaint s.acc s) := by
  obtain ⟨b, n, e, hb⟩ := storeByte_eq s.accTaint s.acc s
  have hbps := h.bps_eq_bidx_succ hplan hpixv hcol hslot
  rw [e]
  constructor
  · simp only [hbps]
    exact memGet_memPut_lt_succ (P := fun _ o => o ≠ none) h.packs.written nofun
  · intro hdet
    obtain ⟨hacc, hbytes⟩ := h.packs.determined hdet
    simp only [hbps]
    exact memGet_memPut_lt_succ (P := fun j o => o = some (lineByte s.depth.toNat (insertedPixels s) j)) hbytes
      (by rw [hb hacc, h.packs.acc])

/-- 43 R140: EOL's turn to replay, given that the line buffer `lb` it leaves holds the line. -/
theorem Packing.turnToReplay {s : State} (h : Packing s) (hplan : PlanHolds s) (hpixv : s.pixv = false)
    (hcol : s.col = s.srcW) {lb : Memory} {n : Nat}
    (hline : HoldsLine (insertedPixels s) { s with lb := lb, draws := n }) :
    ReplayInv (turnToReplay { s with lb := lb, draws := n }) := by
  have hbps := hplan.bps_eq
  obtain ⟨_, _, _, hscale, _, _, _, _, hone, _⟩ := hplan
  have hlength := h.taking.length
  simp only [hpixv, hcol, Bool.false_eq_true, if_false, Nat.add_zero] at hlength
  refine ⟨h.plan, h.row_lt, hscale, hone, rfl, h.taking.free hpixv, rfl, rfl, hpixv, rfl, hline.written, ?_, ?_,
    fun hdet => ⟨fun j hj => ?_, ?_⟩⟩
  · rw [Nat.succ_mul]; exact hlength
  · simpa using h.emittedLength
  · rw [h.insertedPixels_eol hpixv hcol] at hline
    exact (hline.determined hdet j hj).trans (getElem?_frameLine (hbps ▸ hj)).symm
  · show s.emitted = earlierScanlines s ++ [] ++ []
    rw [List.append_nil, List.append_nil]
    exact h.emitted hdet

/-! ### EMIT -/

/-- 10 R29: the byte EMIT reads was written. -/
theorem ReplayInv.memGet_bidx {s : State} (h : ReplayInv s) :
    memGet s.lb s.bidx.toNat = some (lbRead s.lb s.bidx.toNat) := by
  obtain ⟨_, _, _, hbidx, _, _, _, _, _, _, hwritten, _⟩ := h
  obtain ⟨b, hb⟩ := Option.ne_none_iff_exists'.1 (hwritten _ hbidx)
  rw [lbRead, hb]; rfl

/-- 43 R141: after its push EMIT has put out the current copy's bytes up to `BIDX`. -/
theorem ReplayInv.emitted_push {s : State} (h : ReplayInv s) (hdet : Determined s) :
    s.emitted ++ [lbRead s.lb s.bidx.toNat]
      = earlierScanlines s ++ repeatSeq s.vrep.toNat (currentLine s) ++ (currentLine s).take (s.bidx.toNat + 1) := by
  have hread := h.memGet_bidx
  obtain ⟨_, _, _, hbidx, _, _, _, _, _, _, _, _, _, hcontents⟩ := h
  obtain ⟨hline, hemitted⟩ := hcontents hdet
  rw [List.take_add_one, ← hline _ hbidx, hread, hemitted, Option.toList_some, List.append_assoc]

/-- A copy of the scanline is out when its last byte is. -/
theorem ReplayInv.emitted_copy {s : State} (h : ReplayInv s) (hplan : PlanHolds s) (hdet : Determined s)
    (hlast : s.bps.toNat ≤ s.bidx.toNat + 1) :
    s.emitted ++ [lbRead s.lb s.bidx.toNat]
      = earlierScanlines s ++ repeatSeq (s.vrep.toNat + 1) (currentLine s) := by
  have hlen : (currentLine s).length ≤ s.bidx.toNat + 1 := by
    rw [currentLine, length_frameLine, ← hplan.bps_eq]; exact hlast
  rw [h.emitted_push hdet, List.take_of_length_le hlen, repeatSeq_succ, List.append_assoc]

/-- A scanline is out when its last copy is. -/
theorem ReplayInv.emitted_scanline {s : State} (h : ReplayInv s) (hplan : PlanHolds s) (hdet : Determined s)
    (hlast : s.bps.toNat ≤ s.bidx.toNat + 1) (hcopies : s.scale.toNat ≤ s.vrep.toNat + 1) :
    s.emitted ++ [lbRead s.lb s.bidx.toNat]
      = frame s.taken s.srcW.toNat (s.row.toNat + 1) s.scale.toNat s.depth.toNat := by
  have hvrep : s.vrep.toNat + 1 = s.scale.toNat := by
    obtain ⟨_, _, hlt, _⟩ := h
    omega
  rw [h.emitted_copy hplan hdet hlast, hvrep, frame_succ]
  rfl

/-- 10 R28 (e): how many bytes are out with the last byte of a copy. -/
theorem ReplayInv.emittedLength_copy {s : State} (h : ReplayInv s) (hlast : s.bps.toNat ≤ s.bidx.toNat + 1) :
    s.emitted.length + 1 = s.row.toNat * s.scale.toNat * s.bps.toNat + (s.vrep.toNat + 1) * s.bps.toNat := by
  obtain ⟨_, _, _, hbidx, _, _, _, _, _, _, _, _, hemitted, _⟩ := h
  rw [hemitted, Nat.succ_mul]
  omega

theorem ReplayInv.emittedLength_scanline {s : State} (h : ReplayInv s) (hlast : s.bps.toNat ≤ s.bidx.toNat + 1)
    (hcopies : s.scale.toNat ≤ s.vrep.toNat + 1) :
    s.emitted.length + 1 = (s.row.toNat + 1) * s.scale.toNat * s.bps.toNat := by
  have hvrep : s.vrep.toNat + 1 = s.scale.toNat := by
    obtain ⟨_, _, hlt, _⟩ := h
    omega
  rw [h.emittedLength_copy hlast, hvrep]
  ring

/-- Where EMIT goes on to, with the counter that is stepped as a number: none of them wraps (10 R26). -/
theorem afterEmit_pushByte_cases (b : Byte) (s : State) :
    (s.bidx.toNat + 1 < s.bps.toNat
        ∧ ∃ i : Word, i.toNat = s.bidx.toNat + 1 ∧ afterEmit (pushByte b s) = { pushByte b s with bidx := i })
    ∨ (s.bps.toNat ≤ s.bidx.toNat + 1 ∧ s.vrep.toNat + 1 < s.scale.toNat
        ∧ ∃ v : Half, v.toNat = s.vrep.toNat + 1
          ∧ afterEmit (pushByte b s) = { pushByte b s with bidx := 0#32, vrep := v })
    ∨ (s.bps.toNat ≤ s.bidx.toNat + 1 ∧ s.scale.toNat ≤ s.vrep.toNat + 1 ∧ s.row.toNat + 1 < s.srcH.toNat
        ∧ ∃ r : Half, r.toNat = s.row.toNat + 1
          ∧ afterEmit (pushByte b s) = { pushByte b s with bidx := 0#32, vrep := 0#16, row := r, phase := .pack })
    ∨ (s.bps.toNat ≤ s.bidx.toNat + 1 ∧ s.scale.toNat ≤ s.vrep.toNat + 1 ∧ s.srcH.toNat ≤ s.row.toNat + 1
        ∧ afterEmit (pushByte b s)
          = { pushByte b s with bidx := 0#32, vrep := 0#16, row := 0#16, phase := .idle, done := true }) := by
  rcases afterEmit_cases (pushByte b s) with
    ⟨hmore, e⟩ | ⟨hlast, hmore, e⟩ | ⟨hlast, hcopies, hmore, e⟩ | ⟨hlast, hcopies, hend, e⟩ <;>
    simp only [pushByte_fields] at *
  · exact .inl ⟨hmore, s.bidx + 1, by bv_omega, e⟩
  · exact .inr (.inl ⟨hlast, hmore, s.vrep + 1, by bv_omega, e⟩)
  · exact .inr (.inr (.inl ⟨hlast, hcopies, hmore, s.row + 1, by bv_omega, e⟩))
  · exact .inr (.inr (.inr ⟨hlast, hcopies, hend, e⟩))

/-- 43 R141: EMIT keeps the invariant on each of its four ways on. -/
theorem sequencerInv_emit {s : State} (hphase : s.phase = .replay) (h : ReplayInv s) (hplan : PlanHolds s) :
    SequencerInv (afterEmit (pushByte (lbRead s.lb s.bidx.toNat) s)) := by
  have hpush := h.emitted_push
  have hcopy := h.emitted_copy hplan
  have hscanline := h.emitted_scanline hplan
  have hcopyLength := h.emittedLength_copy
  have hscanlineLength := h.emittedLength_scanline
  obtain ⟨hvalid, hrow, hvrep, hbidx, hcol, hhrep, hslot, hacc, hpixv, htaint, hwritten, htaken, hemitted, hline⟩ := h
  have hlength : (pushByte (lbRead s.lb s.bidx.toNat) s).emitted.length = s.emitted.length + 1 := by simp
  rcases afterEmit_pushByte_cases (lbRead s.lb s.bidx.toNat) s with
    ⟨hmore, i, hi, e⟩ | ⟨hlast, hmore, v, hv, e⟩ | ⟨hlast, hcopies, hmore, r, hr, e⟩ | ⟨hlast, hcopies, hend, e⟩ <;>
    rw [e]
  · refine sequencerInv_replay hphase ⟨hvalid, hrow, hvrep, ?_, hcol, hhrep, hslot, hacc, hpixv, htaint, hwritten,
      htaken, ?_, fun hdet => ⟨(hline hdet).1, ?_⟩⟩
    · rw [← hi] at hmore; exact hmore
    · rw [hemitted, Nat.add_assoc, ← hi] at hlength; exact hlength
    · rw [← hi] at hpush; exact hpush hdet
  · refine sequencerInv_replay hphase ⟨hvalid, hrow, ?_, Nat.zero_lt_of_lt hbidx, hcol, hhrep, hslot, hacc, hpixv,
      htaint, hwritten, htaken, ?_, fun hdet => ⟨(hline hdet).1, ?_⟩⟩
    · rw [← hv] at hmore; exact hmore
    · rw [hcopyLength hlast, ← hv] at hlength; exact hlength
    · rw [← hv] at hcopy
      exact (hcopy hdet hlast).trans (List.append_nil _).symm
  · refine sequencerInv_packing rfl (packing_lineStart hvalid ?_ ⟨hcol, hhrep, rfl, hslot, rfl, hacc, hpixv, htaint⟩ ?_
      ?_ fun hdet => ?_)
    · rw [← hr] at hmore; exact hmore
    · rw [← hr] at htaken; exact htaken
    · rw [hscanlineLength hlast hcopies, ← hr] at hlength; exact hlength
    · rw [← hr] at hscanline; exact hscanline hdet hlast hcopies
  · have hrows : s.row.toNat + 1 = s.srcH.toNat := by omega
    obtain ⟨_, _, _, _, _, _, houtH, _⟩ := hplan
    refine sequencerInv_idle rfl ⟨rfl, hcol, hhrep, rfl, hslot, rfl, hacc, hpixv, htaint,
      fun _ _ => ⟨?_, ?_, fun hdet => ?_⟩⟩
    · rw [hrows, Nat.mul_comm] at htaken; exact htaken
    · rw [hscanlineLength hlast hcopies, hrows, ← houtH, Nat.mul_comm] at hlength; exact hlength
    · rw [hrows] at hscanline; exact hscanline hdet hlast hcopies

/-! ### Every effect, every step -/

theorem MicroEffect.sequencerInv {s t : State} (h : MicroEffect s t) (hinv : PlanInv s) (hs : SequencerInv s) :
    SequencerInv t := by
  cases h with
  | fetched hphase hpixv hcol hvalid p rest =>
    obtain ⟨_, _, _, hscale, _⟩ := hinv.1 hvalid
    exact sequencerInv_packing hphase ((hs.packing hphase).takePixel hpixv hcol hscale p rest)
  | filled hphase hpixv hd hvalid hfull =>
    have hpack := hs.packing hphase
    obtain ⟨b, n, e, _⟩ := finishByte_eq s.depth.toNat s
    have hnext := hpack.insert hpixv ⟨_, _, _, _, _, _, e⟩
      (hpack.packs.finishByte hd hfull (hpack.bidx_lt_bps (hinv.1 hvalid) hpixv) (hpack.taking.taints_eq_false hpixv))
    refine sequencerInv_packing ?_ hnext
    obtain ⟨b, n, v, r, c, e⟩ := nextCopy_finishByte_eq s.depth.toNat s
    rw [e]; exact hphase
  | extended hphase hpixv hd hvalid hroom =>
    have hpack := hs.packing hphase
    have hnext := hpack.insert hpixv ⟨s.lb, s.draws, s.bidx, _, _, _, rfl⟩
      (hpack.packs.extendByte hd hroom (hpack.taking.taints_eq_false hpixv))
    refine sequencerInv_packing ?_ hnext
    obtain ⟨v, r, c, e⟩ := nextCopy_eq (extendByte s.depth.toNat s)
    rw [e]; exact hphase
  | turned hphase hpixv hcol hvalid hslot =>
    have hpack := hs.packing hphase
    have hplan := hinv.1 hvalid
    exact sequencerInv_replay rfl
      (hpack.turnToReplay hplan hpixv hcol (lb := s.lb) (n := s.draws) (hpack.holdsLine hplan hpixv hcol hslot))
  | flushed hphase hpixv hcol hvalid hslot =>
    have hpack := hs.packing hphase
    have hplan := hinv.1 hvalid
    have hline := hpack.holdsLine_storeByte hplan hpixv hcol hslot
    obtain ⟨b, n, e, _⟩ := storeByte_eq s.accTaint s.acc s
    rw [e] at hline ⊢
    exact sequencerInv_replay rfl (hpack.turnToReplay hplan hpixv hcol hline)
  | emitted hphase _ hvalid => exact sequencerInv_emit hphase (hs.2.2 hphase) (hinv.1 hvalid)

end Sys2Proof.Machine
end

section
/-! PROOF. The whole invariant (10 R22, R26, R28; 43 R142) holds at reset, is kept by every turn, and rules out the
situations the model refuses (93 U7) and a read of an unwritten byte (10 R29). -/

namespace Sys2Proof.Machine

/-! ### Commands and the sequencer -/

theorem AtRest.of_same {s t : State} (h : SameSequencer s t) (hs : AtRest s) : AtRest t := by
  obtain ⟨_, hrow, hcol, hhrep, hvrep, hslot, hbidx, hacc, _, hpixv, htaint⟩ := h
  simpa only [AtRest, AtLineStart, hrow, hcol, hhrep, hvrep, hslot, hbidx, hacc, hpixv, htaint] using hs

theorem sameSequencer_raiseError (code : ErrCode) (s : State) : SameSequencer s (raiseError code s) := by
  cases h : code.isPlanner
  · rw [raiseError_other h]; and_intros <;> rfl
  · rw [raiseError_planner h]; and_intros <;> rfl

theorem raiseError_done (code : ErrCode) (s : State) : (raiseError code s).done = s.done := by
  cases h : code.isPlanner
  · rw [raiseError_other h]
  · rw [raiseError_planner h]; rfl

/-- What leaves an idle sequencer's variables alone, with `DONE` clear, leaves it at rest. -/
theorem sequencerInv_of_same {s t : State} (hphase : s.phase = .idle) (hrest : AtRest s) (hsame : SameSequencer s t)
    (hdone : t.done = false) : SequencerInv t :=
  sequencerInv_atRest (hsame.1.trans hphase) (hrest.of_same hsame) fun h => by simp [hdone] at h

/-- 60 R173: an error of a command that was accepted starts nothing. -/
theorem sequencerInv_raiseError {s : State} (hphase : s.phase = .idle) (hrest : AtRest s) (code : ErrCode) :
    SequencerInv (raiseError code (clearFlags s)) :=
  sequencerInv_of_same (s := clearFlags s) hphase hrest (sameSequencer_raiseError code _) (raiseError_done code _)

theorem atRest_zeroSequencer (s : State) : AtRest (zeroSequencer s) := by and_intros <;> rfl

/-! ### The invariant is kept -/

theorem TurnEffect.sequencerInv {s t : State} (h : TurnEffect s t) (hinv : PlanInv s) (hs : SequencerInv s) :
    SequencerInv t := by
  cases h with
  | traffic => exact hs
  | dropped => exact hs
  | badCmd => rw [raiseError_other rfl]; exact hs
  | configured hidle idx v =>
    obtain ⟨p, w, h, c, e⟩ := configStore_eq idx v s
    rw [e]
    exact sequencerInv_atRest hidle (hs.atRest hidle) fun _ => rfl
  | failed hidle => exact sequencerInv_raiseError hidle (hs.atRest hidle) _
  | planned hidle => exact sequencerInv_of_same hidle (hs.atRest hidle) (by and_intros <;> rfl) rfl
  | noPlan hidle => exact sequencerInv_raiseError hidle (hs.atRest hidle) _
  | started hidle hplan => exact sequencerInv_startFrame (s := clearFlags s) hidle (hs.atRest hidle) hplan hinv
  | rendered hidle hplan =>
    exact sequencerInv_startFrame (s := commitPlan _ _ _ _ (clearFlags s)) hidle (hs.atRest hidle) rfl
      (planInv_commitPlan (s := clearFlags s) hplan)
  | abort => exact sequencerInv_atRest rfl (atRest_zeroSequencer _) nofun
  | reset => exact sequencerInv_atRest rfl (atRest_zeroSequencer _) nofun
  | micro h => exact h.sequencerInv hinv hs

theorem TurnEffect.inv {s t : State} (h : TurnEffect s t) (hs : Inv s) : Inv t := by
  obtain ⟨hbytes, hplan, hlb, hhistory, hseq⟩ := hs
  exact ⟨h.buffer.1.symm ▸ hbytes, h.planInv hplan, h.lineBufferInv hlb, h.historyInv hhistory,
    h.sequencerInv hplan hseq⟩

/-- Taking the event off the agenda is nothing to the invariant. -/
theorem inv_fetch (s : State) (ready : Bool) (rest : List Event) (h : Inv s) :
    Inv { s with sinkReady := ready, agenda := rest } := h

/-- Settles O46: each part of the invariant is kept by every effect of a turn; the sequencer's part by packing one more
pixel, storing the line, or emitting one more byte. -/
theorem invariantIsKept : Obligations.InvariantIsKept := fun _ _ =>
  kept_by_step inv_fetch fun _ _ hs h => h.inv hs

/-- Settles O45: at reset there is no plan, nothing is listed, and the sequencer is at rest. -/
theorem invariantHoldsAtReset : Obligations.InvariantHoldsAtReset :=
  ⟨by decide, planInv_reset, ⟨reset_lineBuffer_wf, rfl⟩, historyInv_of_clear rfl rfl,
    sequencerInv_atRest rfl (by and_intros <;> rfl) nofun⟩

/-! ### Emitted bytes were written -/

/-- A busy block's turn that pushes a byte is an EMIT, and the byte is the one read at `BIDX`. -/
theorem TurnEffect.emitted_eq {s t : State} (h : TurnEffect s t) (hphase : s.phase ≠ .idle) :
    t.emitted = s.emitted
      ∨ (s.phase = .replay ∧ t.emitted = s.emitted ++ [lbRead s.lb s.bidx.toNat]) := by
  cases h with
  | traffic => exact .inl rfl
  | dropped => exact .inl rfl
  | badCmd hidle => exact absurd hidle hphase
  | configured hidle => exact absurd hidle hphase
  | failed hidle => exact absurd hidle hphase
  | planned hidle => exact absurd hidle hphase
  | noPlan hidle => exact absurd hidle hphase
  | started hidle => exact absurd hidle hphase
  | rendered hidle => exact absurd hidle hphase
  | abort => exact .inl rfl
  | reset => exact .inl rfl
  | micro h =>
    cases h with
    | fetched => exact .inl rfl
    | filled =>
      obtain ⟨b, n, v, r, c, e⟩ := nextCopy_finishByte_eq s.depth.toNat s
      exact .inl (by rw [e])
    | extended =>
      obtain ⟨v, r, c, e⟩ := nextCopy_eq (extendByte s.depth.toNat s)
      exact .inl (by rw [e]; rfl)
    | turned => exact .inl rfl
    | flushed =>
      obtain ⟨b, n, e, _⟩ := storeByte_eq s.accTaint s.acc s
      exact .inl (by rw [e]; rfl)
    | emitted hreplay =>
      obtain ⟨b, v, r, p, d, e⟩ := afterEmit_eq (pushByte (lbRead s.lb s.bidx.toNat) s)
      exact .inr ⟨hreplay, by rw [e]; rfl⟩

/-- Settles O41: in REPLAY only EMIT pushes a byte, it reads `LB[BIDX]`, and all `BPS` bytes of the line are listed. -/
theorem emittedByteWasWritten : Obligations.EmittedByteWasWritten := by
  intro s t b hinv hphase hstep hpush
  obtain ⟨_, _, _, _, _, _, hreplay⟩ := hinv
  have hread := ReplayInv.memGet_bidx (hreplay hphase)
  obtain ⟨ready, rest, e⟩ := afterFetch_same s
  have heff := turnEffect_step hstep
  rw [e] at heff
  rcases heff.emitted_eq (by rw [hphase]; nofun) with hsame | ⟨_, hemit⟩
  · exact absurd (hsame.symm.trans hpush) (by simp)
  · have hb : b = lbRead s.lb s.bidx.toNat := by simpa using hpush.symm.trans hemit
    rw [hb]; exact hread

/-! ### No stop -/

theorem Inv.packing {s : State} (h : Inv s) (hphase : s.phase = .pack) : Packing s ∧ PlanHolds s := by
  obtain ⟨_, hplan, _, _, hseq⟩ := h
  have hpack := hseq.packing hphase
  exact ⟨hpack, hplan.1 hpack.plan⟩

theorem execFetch_answers {s : State} (hs : Inv s) (d : BitVec 4) : ∃ t, execFetch d s = .next t := by
  unfold execFetch
  split
  · rename_i hsel
    obtain ⟨hpack, _⟩ := Inv.packing hs hsel.1
    rw [if_neg (by simp [hpack.plan]), if_neg (Nat.not_lt.2 hpack.taking.col_le)]
    split <;> exact ⟨_, rfl⟩
  · exact ⟨_, rfl⟩

theorem insertCopy_answers {s : State} (hs : Inv s) {d : Nat} (hd : IsDepth d) : ∃ t, insertCopy d s = .next t := by
  unfold insertCopy
  split
  · rename_i hsel
    obtain ⟨hphase, hpixv, hdepth⟩ := hsel
    obtain ⟨hpack, hplan⟩ := Inv.packing hs hphase
    have he := hd.eq_toNat hdepth
    have hslot : s.slot.toNat < ppb d := by
      rw [hpack.packs.slot, he]; exact Nat.mod_lt _ hplan.isDepth.ppb_pos
    have hbidx := hpack.bidx_lt_bps hplan hpixv
    obtain ⟨_, _, _, _, _, _, _, _, _, hfit⟩ := hplan
    rw [if_neg (by simp [hpack.plan]), if_neg (Nat.not_le.2 hslot), if_pos (hbidx.trans_le hfit)]
    split <;> exact ⟨_, rfl⟩
  · exact ⟨_, rfl⟩

theorem execEol_answers {s : State} (hs : Inv s) (d : BitVec 4) : ∃ t, execEol d s = .next t := by
  unfold execEol
  split
  · rename_i hsel
    obtain ⟨hphase, hpixv, hcol⟩ := hsel
    obtain ⟨hpack, hplan⟩ := Inv.packing hs hphase
    rw [if_neg (by simp [hpack.plan])]
    split
    · exact ⟨_, rfl⟩
    · rename_i hslot
      have hbps := hpack.bps_eq_bidx_succ hplan hpixv hcol hslot
      obtain ⟨_, _, _, _, _, _, _, _, _, hfit⟩ := hplan
      rw [if_pos (by omega)]
      exact ⟨_, rfl⟩
  · exact ⟨_, rfl⟩

theorem execEmit_answers {s : State} (hs : Inv s) (p e : Bool) (d : BitVec 4) : ∃ t, execEmit p e d s = .next t := by
  unfold execEmit
  split
  · rename_i hsel
    obtain ⟨_, hplan, _, _, _, _, hreplay⟩ := hs
    obtain ⟨hvalid, _, _, hbidx, _⟩ := hreplay hsel.1
    obtain ⟨_, _, _, _, _, _, _, _, _, hfit⟩ := hplan.1 hvalid
    rw [if_neg (by simp [hvalid]), if_neg (Nat.not_le.2 hbidx), if_pos (hbidx.trans_le hfit)]
    exact ⟨_, rfl⟩
  · exact ⟨_, rfl⟩

theorem execRegwr_answers (idx : BitVec 4) (data : Word) (s : State) : ∃ t, execRegwr idx data s = .next t := by
  unfold execRegwr
  split
  · exact ⟨_, rfl⟩
  · split <;> exact ⟨_, rfl⟩

theorem execBytepop_answers (bus : Byte) (s : State) : ∃ t, execBytepop bus s = .next t := by
  unfold execBytepop
  split <;> exact ⟨_, rfl⟩

/-- 93 U7: no operation stops on a state that meets the invariant. -/
theorem exec_answers {s : State} (hs : Inv s) (i : Instr) : ∃ t, exec i s = .next t := by
  cases i with
  | regwr idx data => exact execRegwr_answers idx data s
  | bytepop bus => exact execBytepop_answers bus s
  | regrd | nop | plan | rast | render | abort | pixpush => exact ⟨_, rfl⟩
  | fetch d => exact execFetch_answers hs d
  | insert1 e => exact insertCopy_answers hs (.inl rfl)
  | insert2 e => exact insertCopy_answers hs (.inr (.inl rfl))
  | insert4 e => exact insertCopy_answers hs (.inr (.inr (.inl rfl)))
  | insert8 e => exact insertCopy_answers hs (.inr (.inr (.inr rfl)))
  | eol d => exact execEol_answers hs d
  | emit p e d => exact execEmit_answers hs p e d

theorem runWord_answers {s : State} (hs : Inv s) {w : PortWord}
    (hw : (∃ i, decode w = .ok i) ∨ decode w = .error .seqIdle) : ∃ t, runWord w s = .next t := by
  unfold runWord
  rcases hw with ⟨i, hi⟩ | hidle
  · rw [hi]; exact exec_answers hs i
  · rw [hidle]; exact ⟨_, rfl⟩

/-- 30 R75: at each of the four depths an INSERT is selected. -/
theorem decodeInsert_of_isDepth {d : BitVec 4} (hd : IsDepth d.toNat) (e : Bool) : ∃ i, decodeInsert e d = .ok i := by
  rcases hd with h | h | h | h
  · obtain rfl : d = 1#4 := BitVec.eq_of_toNat_eq h
    exact ⟨.insert1 e, rfl⟩
  · obtain rfl : d = 2#4 := BitVec.eq_of_toNat_eq h
    exact ⟨.insert2 e, rfl⟩
  · obtain rfl : d = 4#4 := BitVec.eq_of_toNat_eq h
    exact ⟨.insert4 e, rfl⟩
  · obtain rfl : d = 8#4 := BitVec.eq_of_toNat_eq h
    exact ⟨.insert8 e, rfl⟩

/-- 30 R75, 43 R133: the selector names a micro-step or says that the sequencer is idle. -/
theorem decode_selector {s : State} (hdepth : s.phase = .pack → IsDepth s.depth.toNat) :
    (∃ i, decode (.seq s.selector) = .ok i) ∨ decode (.seq s.selector) = .error .seqIdle := by
  obtain ⟨hph, hp, he, hd⟩ := seqWord_fields s.phase.code s.pixv s.eolc s.depth
  simp only [decode, decodeSeq, State.selector, hph, hp, he, hd]
  cases hphase : s.phase with
  | idle => exact .inr rfl
  | replay => exact .inl ⟨_, rfl⟩
  | pack =>
    left
    cases s.pixv with
    | true => exact decodeInsert_of_isDepth (hdepth hphase) s.eolc
    | false => cases s.eolc <;> exact ⟨_, rfl⟩

theorem blockTurn_answers {s : State} (hs : Inv s) : ∃ t, blockTurn s = .next t :=
  runWord_answers hs (decode_selector fun hphase => (Inv.packing hs hphase).2.isDepth)

theorem runEvent_answers {s : State} (hs : Inv s) (e : Event) : ∃ t, runEvent e s = .next t := by
  cases e with
  | reg b => exact runWord_answers (w := .reg b) hs (.inl ⟨decodeReg b, rfl⟩)
  | pix p => exact runWord_answers (w := .pix p) hs (.inl ⟨.pixpush p, rfl⟩)
  | byte b => exact runWord_answers (w := .byte b) hs (.inl ⟨.bytepop b, rfl⟩)
  | block ready => exact blockTurn_answers (s := { s with sinkReady := ready }) hs
  | reset => exact ⟨_, rfl⟩
  | pixdrop => exact ⟨_, rfl⟩

/-- Settles O47: the selector names a step, and the invariant's bounds are what the steps ask for. -/
theorem invariantStatesNeverStop : Obligations.InvariantStatesNeverStop := by
  intro s hs
  unfold step turn
  split
  · exact blockTurn_answers hs
  · exact runEvent_answers (inv_fetch s s.sinkReady _ hs) _

/-! ### The `STATUS` word -/

/-- The right part of an append occupies the low bits. -/
theorem toNat_append_eq_add {m n : Nat} (x : BitVec m) (y : BitVec n) :
    (x ++ y).toNat = x.toNat * 2 ^ n + y.toNat := by
  rw [BitVec.toNat_append, ← Nat.shiftLeft_add_eq_or_of_lt y.isLt, Nat.shiftLeft_eq]

/-- 10 R12: the `STATUS` word as a number. -/
theorem statusWord_toNat (s : State) :
    s.statusWord.toNat
      = s.busy.toNat + 2 * s.planValid.toNat + 4 * s.done.toNat + 8 * s.ovr.toNat + 256 * s.err.code.toNat := by
  simp only [State.statusWord, toNat_append_eq_add, BitVec.toNat_ofBool, BitVec.toNat_ofNat]
  omega

/-- Settles O11: the fields of the `STATUS` word are appended, so its number is their weighted sum. -/
theorem statusWordBits : Obligations.StatusWordBits := by
  intro s
  have hbusy : s.busy.toNat = if s.phase = .idle then 0 else 1 := by cases h : s.phase <;> simp [State.busy, h]
  rw [statusWord_toNat, hbusy]
  cases s.planValid <;> cases s.done <;> cases s.ovr <;> rfl

end Sys2Proof.Machine
end

section
/-! PROOF. A turn as the run of its word (20 R48), and the operations one by one: where an operation stops (20 R43,
93 U7), what it keeps of the configuration and the plan while the block is busy (20 R52), and what it makes of the two
streams (20 R44, R45, R50). -/

namespace Sys2Proof.Machine

/-! ### The turn of a word -/

theorem runWord_of_decode {w : PortWord} {i : Instr} (h : decode w = .ok i) (s : State) : runWord w s = exec i s := by
  rw [runWord, h]

/-- 20 R48: a turn that presents a word runs that word on the state with the event off the agenda. -/
theorem step_eq_runWord {s : State} {w : PortWord} (h : turnWord s = some w) : step s = runWord w (afterFetch s) := by
  unfold turnWord at h
  unfold step turn afterFetch
  cases ha : s.agenda with
  | nil => rw [ha] at h; cases h; rfl
  | cons e rest =>
    rw [ha] at h
    cases e with
    | reg b => cases h; rfl
    | pix p => cases h; rfl
    | byte b => cases h; rfl
    | block ready => cases h; rfl
    | reset => cases h
    | pixdrop => cases h

/-- Settles O4: the turn runs the word it presents, and a word that decodes runs as its operation. -/
theorem stepRunsTheDecodedOperation : Obligations.StepRunsTheDecodedOperation := fun s _ _ hword hdecode =>
  (step_eq_runWord hword).trans (runWord_of_decode hdecode (afterFetch s))

/-! ### Where an operation stops (93 U7) -/

/-- The situations the spec refuses to a busy block (93 U7). -/
abbrev RefusedSituation (s : State) : Prop :=
  s.planValid = false ∨ s.srcW.toNat < s.col.toNat ∨ ppb s.depth.toNat ≤ s.slot.toNat ∨ s.lbBytes ≤ s.bidx.toNat
    ∨ s.bps.toNat ≤ s.bidx.toNat

theorem execFetch_stops {d : BitVec 4} {s : State} (h : nextState? (execFetch d s) = none) :
    s.phase ≠ .idle ∧ RefusedSituation s := by
  unfold execFetch at h
  split at h
  · rename_i hsel
    refine ⟨by simp [hsel.1], ?_⟩
    split at h
    · exact .inl ‹_›
    · split at h
      · exact .inr (.inl ‹_›)
      · split at h <;> cases h
  · cases h

theorem insertCopy_stops {d : Nat} (hd : IsDepth d) {s : State} (h : nextState? (insertCopy d s) = none) :
    s.phase ≠ .idle ∧ RefusedSituation s := by
  unfold insertCopy at h
  split at h
  · rename_i hsel
    obtain ⟨hphase, _, hdepth⟩ := hsel
    obtain rfl := hd.eq_toNat hdepth
    refine ⟨by simp [hphase], ?_⟩
    split at h
    · exact .inl ‹_›
    · split at h
      · exact .inr (.inr (.inl ‹_›))
      · split at h
        · split at h
          · cases h
          · exact .inr (.inr (.inr (.inl (Nat.not_lt.1 ‹_›))))
        · cases h
  · cases h

theorem execEol_stops {d : BitVec 4} {s : State} (h : nextState? (execEol d s) = none) :
    s.phase ≠ .idle ∧ RefusedSituation s := by
  unfold execEol at h
  split at h
  · rename_i hsel
    refine ⟨by simp [hsel.1], ?_⟩
    split at h
    · exact .inl ‹_›
    · split at h
      · cases h
      · split at h
        · cases h
        · exact .inr (.inr (.inr (.inl (Nat.not_lt.1 ‹_›))))
  · cases h

theorem execEmit_stops {p e : Bool} {d : BitVec 4} {s : State} (h : nextState? (execEmit p e d s) = none) :
    s.phase ≠ .idle ∧ RefusedSituation s := by
  unfold execEmit at h
  split at h
  · rename_i hsel
    refine ⟨by simp [hsel.1], ?_⟩
    split at h
    · exact .inl ‹_›
    · split at h
      · exact .inr (.inr (.inr (.inr ‹_›)))
      · split at h
        · cases h
        · exact .inr (.inr (.inr (.inl (Nat.not_lt.1 ‹_›))))
  · cases h

theorem nextState?_exec_ne_none {i : Instr} {s : State} (h : ∃ t, exec i s = .next t) :
    nextState? (exec i s) ≠ none := by
  obtain ⟨t, e⟩ := h
  rw [e]; nofun

/-- Settles O48: an operation of the host answers in every state; a micro-step's guards fail only where the spec refuses
it. -/
theorem operationsStopOnlyWhereRefused : Obligations.OperationsStopOnlyWhereRefused := by
  intro i s h
  cases i with
  | regwr idx data => exact absurd h (nextState?_exec_ne_none (execRegwr_answers idx data s))
  | bytepop bus => exact absurd h (nextState?_exec_ne_none (execBytepop_answers bus s))
  | regrd | nop | plan | rast | render | abort | pixpush => cases h
  | fetch d => exact ⟨rfl, execFetch_stops (d := d) h⟩
  | insert1 e => exact ⟨rfl, insertCopy_stops (.inl rfl) h⟩
  | insert2 e => exact ⟨rfl, insertCopy_stops (.inr (.inl rfl)) h⟩
  | insert4 e => exact ⟨rfl, insertCopy_stops (.inr (.inr (.inl rfl))) h⟩
  | insert8 e => exact ⟨rfl, insertCopy_stops (.inr (.inr (.inr rfl))) h⟩
  | eol d => exact ⟨rfl, execEol_stops (d := d) h⟩
  | emit p e d => exact ⟨rfl, execEmit_stops (p := p) (e := e) (d := d) h⟩

/-! ### What the port operations answer -/

/-- 40 R82: a REGWR is ignored, issues a command, or writes the configuration. -/
theorem execRegwr_next {idx : BitVec 4} {data : Word} {s t : State} (h : execRegwr idx data s = .next t) :
    t = s ∨ t = issueCommand data s ∨ t = configWrite idx data s := by
  unfold execRegwr at h
  split at h
  · cases h; exact .inr (.inl rfl)
  · split at h
    · cases h; exact .inr (.inr rfl)
    · cases h; exact .inl rfl

/-- 40 R87: a BYTEPOP waits or takes the head of `OUT`. -/
theorem execBytepop_next {bus : Byte} {s t : State} (h : execBytepop bus s = .next t) :
    t = s ∨ ∃ b rest, s.out = b :: rest ∧ t = { s with out := rest, received := s.received ++ [b] } := by
  unfold execBytepop at h
  split at h
  · cases h; exact .inl rfl
  · cases h; exact .inr ⟨_, _, ‹_›, rfl⟩

/-! ### Configuration and plan while busy (20 R52) -/

/-- The configuration and the plan are the same. -/
abbrev SameSetup (s t : State) : Prop := SameConfig s t ∧ SamePlan s t

theorem sameSetup_refl (s : State) : SameSetup s s := by and_intros <;> rfl

theorem sameSetup_setOvr (s : State) : SameSetup s (setOvr s) := sameSetup_refl s

theorem sameSetup_doAbort (s : State) : SameSetup s (doAbort s) := sameSetup_refl s

theorem microEffect_insertCopy {d : Nat} {s t : State} (hd : IsDepth d) (h : insertCopy d s = .next t) :
    t = s ∨ MicroEffect s t := by
  rcases insertCopy_next h with rfl | ⟨hphase, hpixv, hdepth, hplan, hslot, hbranch⟩
  · exact .inl rfl
  · obtain rfl := hd.eq_toNat hdepth
    rcases hbranch with ⟨hfull, hbidx, rfl⟩ | ⟨hroom, rfl⟩
    · exact .inr (.filled hphase hpixv hd hplan hfull hbidx)
    · exact .inr (.extended hphase hpixv hd hplan (by omega))

/-- 43 R133: a micro-step has its effect or is not taken. -/
theorem microEffect_exec {i : Instr} (hi : isMicroStep i = true) {s t : State} (h : exec i s = .next t) :
    t = s ∨ MicroEffect s t := by
  cases i with
  | fetch d =>
    rcases execFetch_next (d := d) h with rfl | ⟨hphase, hpixv, hcol, hplan, p, rest, hin, rfl⟩
    · exact .inl rfl
    · exact .inr (.fetched hphase hpixv hcol hplan p rest hin)
  | insert1 e => exact microEffect_insertCopy (.inl rfl) h
  | insert2 e => exact microEffect_insertCopy (.inr (.inl rfl)) h
  | insert4 e => exact microEffect_insertCopy (.inr (.inr (.inl rfl))) h
  | insert8 e => exact microEffect_insertCopy (.inr (.inr (.inr rfl))) h
  | eol d =>
    rcases execEol_next (d := d) h with rfl | ⟨hphase, hpixv, hcol, hplan, ⟨hslot, rfl⟩ | ⟨hslot, hbidx, rfl⟩⟩
    · exact .inl rfl
    · exact .inr (.turned hphase hpixv hcol hplan hslot)
    · exact .inr (.flushed hphase hpixv hcol hplan hslot hbidx)
  | emit p e d =>
    rcases execEmit_next (p := p) (e := e) (d := d) h with rfl | ⟨hphase, hready, hplan, hline, hbidx, rfl⟩
    · exact .inl rfl
    · exact .inr (.emitted hphase hready hplan hline hbidx)
  | regrd | regwr | nop | plan | rast | render | abort | pixpush | bytepop => cases hi

theorem sameSetup_microStep {i : Instr} (hi : isMicroStep i = true) {s t : State} (h : exec i s = .next t) :
    SameSetup s t := by
  rcases microEffect_exec hi h with rfl | hmicro
  · exact sameSetup_refl t
  · obtain ⟨hconfig, hplan, _⟩ := hmicro.sameBesides
    exact ⟨hconfig, hplan⟩

theorem sameSetup_acceptIdle (effect : State → State) {s : State} (hbusy : s.phase ≠ .idle) :
    SameSetup s (acceptIdle effect s) := by
  rw [acceptIdle_busy effect hbusy]; exact sameSetup_setOvr s

/-- 40 R83: while busy a command word other than NOP and ABORT is dropped. -/
theorem sameSetup_issueCommand (c : Word) {s : State} (hbusy : s.phase ≠ .idle) : SameSetup s (issueCommand c s) := by
  rcases issueCommand_cases c s with ⟨_, e⟩ | ⟨_, e⟩ | ⟨_, e⟩ | ⟨_, e⟩ | ⟨_, e⟩ | ⟨_, e⟩ <;> rw [e]
  · exact sameSetup_refl s
  · exact sameSetup_doAbort s
  · exact sameSetup_acceptIdle _ hbusy
  · exact sameSetup_acceptIdle _ hbusy
  · exact sameSetup_acceptIdle _ hbusy
  · rcases badCommand_cases s with ⟨_, e⟩ | ⟨hidle, _⟩
    · rw [e]; exact sameSetup_setOvr s
    · exact absurd hidle hbusy

theorem sameSetup_configWrite (idx : BitVec 4) (data : Word) {s : State} (hbusy : s.phase ≠ .idle) :
    SameSetup s (configWrite idx data s) := by
  rcases configWrite_cases idx data s with ⟨_, e⟩ | ⟨hidle, _⟩
  · rw [e]; exact sameSetup_setOvr s
  · exact absurd hidle hbusy

/-- 20 R52: no operation on a busy block changes the configuration or the plan. -/
theorem sameSetup_exec {i : Instr} {s t : State} (hbusy : s.phase ≠ .idle) (h : exec i s = .next t) :
    SameSetup s t := by
  cases i with
  | regrd idx data => cases h; exact sameSetup_refl s
  | regwr idx data =>
    rcases execRegwr_next h with rfl | rfl | rfl
    · exact sameSetup_refl t
    · exact sameSetup_issueCommand data hbusy
    · exact sameSetup_configWrite idx data hbusy
  | nop => cases h; exact sameSetup_refl s
  | plan | rast | render => cases h; exact sameSetup_acceptIdle _ hbusy
  | abort => cases h; exact sameSetup_doAbort s
  | pixpush pixel => cases h; exact sameSetup_refl s
  | bytepop bus =>
    rcases execBytepop_next (bus := bus) h with rfl | ⟨b, rest, _, rfl⟩
    · exact sameSetup_refl t
    · exact sameSetup_refl s
  | fetch | insert1 | insert2 | insert4 | insert8 | eol | emit => exact sameSetup_microStep rfl h

/-- Settles O49: a busy block drops the writes and commands, and its micro-steps touch neither; of the turns that run no
operation only the reset does. -/
theorem busyKeepsConfigurationAndPlan : Obligations.BusyKeepsConfigurationAndPlan := by
  intro s t hbusy hstep
  have hphase := (busy_eq_true s).1 hbusy
  obtain ⟨ready, rest, e⟩ := afterFetch_same s
  have hturn := step_next hstep
  rw [e] at hturn
  rcases hturn with ⟨i, _, hexec⟩ | ⟨_, _, _, _, rfl⟩ | ⟨hreset, _, rfl⟩ | ⟨_, _, rfl⟩
  · exact .inl (sameSetup_exec (s := { s with sinkReady := ready, agenda := rest }) hphase hexec)
  · exact .inl (sameSetup_refl s)
  · exact .inr ⟨hreset, rfl⟩
  · exact .inl (sameSetup_refl s)

/-! ### What the commands leave outside the block -/

theorem sameOutside_refl (s : State) : SameOutside s s :=
  ⟨⟨rfl, rfl⟩, fun _ => rfl, ⟨rfl, rfl⟩, ⟨rfl, rfl⟩, ⟨rfl, rfl⟩, rfl⟩

theorem sameOutside_setOvr (s : State) : SameOutside s (setOvr s) := sameOutside_refl s

theorem sameOutside_doAbort (s : State) : SameOutside s (doAbort s) := sameOutside_refl s

theorem sameOutside_commitPlan (d ow oh n : Nat) (s : State) : SameOutside s (commitPlan d ow oh n s) :=
  sameOutside_refl s

theorem sameOutside_raiseError (code : ErrCode) (s : State) : SameOutside s (raiseError code s) := by
  cases h : code.isPlanner
  · rw [raiseError_other h]; exact sameOutside_refl s
  · rw [raiseError_planner h]; exact sameOutside_refl s

theorem sameOutside_startFrame (s : State) : SameOutside s (startFrame s) := by
  by_cases h : s.outH = 0#32
  · rw [startFrame_empty h]; exact sameOutside_refl s
  · rw [startFrame_frame h]; exact sameOutside_refl s

theorem sameOutside_doPlan (s : State) : SameOutside s (doPlan s) := by
  rcases doPlan_cases s with ⟨code, _, _, e⟩ | ⟨_, e⟩ <;> rw [e]
  · exact sameOutside_raiseError code s
  · exact sameOutside_commitPlan _ _ _ _ s

theorem sameOutside_doRast (s : State) : SameOutside s (doRast s) := by
  rcases doRast_cases s with ⟨_, e⟩ | ⟨_, e⟩ <;> rw [e]
  · exact sameOutside_raiseError _ s
  · exact sameOutside_startFrame s

theorem sameOutside_doRender (s : State) : SameOutside s (doRender s) := by
  unfold doRender
  split
  · exact sameOutside_raiseError _ s
  · exact sameOutside_startFrame (commitPlan _ _ _ _ s)

/-- 40 R83: dropped or accepted, a command leaves what its effect leaves. -/
theorem sameOutside_acceptIdle {effect : State → State} (heffect : ∀ s, SameOutside s (effect s)) (s : State) :
    SameOutside s (acceptIdle effect s) := by
  by_cases hidle : s.phase = .idle
  · rw [acceptIdle_idle effect hidle]; exact heffect (clearFlags s)
  · rw [acceptIdle_busy effect hidle]; exact sameOutside_setOvr s

theorem sameOutside_badCommand (s : State) : SameOutside s (badCommand s) := by
  rcases badCommand_cases s with ⟨_, e⟩ | ⟨_, e⟩ <;> rw [e]
  · exact sameOutside_setOvr s
  · exact sameOutside_raiseError _ s

theorem sameOutside_issueCommand (c : Word) (s : State) : SameOutside s (issueCommand c s) := by
  rcases issueCommand_cases c s with ⟨_, e⟩ | ⟨_, e⟩ | ⟨_, e⟩ | ⟨_, e⟩ | ⟨_, e⟩ | ⟨_, e⟩ <;> rw [e]
  · exact sameOutside_refl s
  · exact sameOutside_doAbort s
  · exact sameOutside_acceptIdle sameOutside_doPlan s
  · exact sameOutside_acceptIdle sameOutside_doRast s
  · exact sameOutside_acceptIdle sameOutside_doRender s
  · exact sameOutside_badCommand s

theorem sameOutside_configWrite (idx : BitVec 4) (data : Word) (s : State) :
    SameOutside s (configWrite idx data s) := by
  rcases configWrite_cases idx data s with ⟨_, e⟩ | ⟨_, e⟩ <;> rw [e]
  · exact sameOutside_setOvr s
  · obtain ⟨p, w, h, c, e⟩ := configStore_eq idx (configValue data) s
    rw [e]; exact sameOutside_refl s

theorem sameOutside_execRegwr {idx : BitVec 4} {data : Word} {s t : State} (h : execRegwr idx data s = .next t) :
    SameOutside s t := by
  rcases execRegwr_next h with rfl | rfl | rfl
  · exact sameOutside_refl t
  · exact sameOutside_issueCommand data s
  · exact sameOutside_configWrite idx data s

/-! ### The two streams (20 R44, R45, R50) -/

/-- What operation `i` may make of `OUT` together with the bytes the host has taken, and of `IN`. -/
structure StreamEffect (i : Instr) (s t : State) : Prop where
  out : t.received ++ t.out = s.received ++ s.out
    ∨ ∃ b p e d, i = .emit p e d ∧ t.received ++ t.out = s.received ++ s.out ++ [b]
  pixIn : t.pixIn = s.pixIn ∨ (∃ p, i = .pixpush p ∧ t.pixIn = s.pixIn ++ [p])
    ∨ ∃ p d, i = .fetch d ∧ s.pixIn = p :: t.pixIn ∧ t.pixreg = p

theorem streamEffect_refl (i : Instr) (s : State) : StreamEffect i s s := ⟨.inl rfl, .inl rfl⟩

theorem streamEffect_of_sameOutside {s t : State} (h : SameOutside s t) (i : Instr) : StreamEffect i s t := by
  obtain ⟨_, _, ⟨hpixIn, hout⟩, _, ⟨_, hreceived⟩, _⟩ := h
  exact ⟨.inl (by rw [hreceived, hout]), .inl hpixIn⟩

theorem streamEffect_pixpush (pixel : Byte) (s : State) :
    StreamEffect (.pixpush pixel) s { s with pixIn := s.pixIn ++ [pixel] } where
  out := .inl rfl
  pixIn := .inr (.inl ⟨pixel, rfl, rfl⟩)

/-- 40 R87: the byte the host takes is the head of `OUT`, so the two in a row stay as they were. -/
theorem streamEffect_bytepop {bus : Byte} {s t : State} (h : execBytepop bus s = .next t) :
    StreamEffect (.bytepop bus) s t := by
  rcases execBytepop_next h with rfl | ⟨b, rest, hout, rfl⟩
  · exact streamEffect_refl _ t
  · exact ⟨.inl (by simp [hout]), .inl rfl⟩

theorem streamEffect_fetch {d : BitVec 4} {s t : State} (h : execFetch d s = .next t) :
    StreamEffect (.fetch d) s t := by
  rcases execFetch_next h with rfl | ⟨_, _, _, _, p, rest, hin, rfl⟩
  · exact streamEffect_refl _ t
  · exact ⟨.inl rfl, .inr (.inr ⟨p, d, rfl, hin, rfl⟩)⟩

theorem streamEffect_insertCopy {d : Nat} {s t : State} (h : insertCopy d s = .next t) (i : Instr) :
    StreamEffect i s t := by
  rcases insertCopy_next h with rfl | ⟨_, _, _, _, _, ⟨_, _, rfl⟩ | ⟨_, rfl⟩⟩
  · exact streamEffect_refl i t
  · obtain ⟨b, n, v, r, c, e⟩ := nextCopy_finishByte_eq d s
    rw [e]; exact ⟨.inl rfl, .inl rfl⟩
  · obtain ⟨v, r, c, e⟩ := nextCopy_eq (extendByte d s)
    rw [e]; exact ⟨.inl rfl, .inl rfl⟩

theorem streamEffect_eol {d : BitVec 4} {s t : State} (h : execEol d s = .next t) :
    StreamEffect (.eol d) s t := by
  rcases execEol_next h with rfl | ⟨_, _, _, _, ⟨_, rfl⟩ | ⟨_, _, rfl⟩⟩
  · exact streamEffect_refl _ t
  · exact ⟨.inl rfl, .inl rfl⟩
  · obtain ⟨b, n, e, _⟩ := storeByte_eq s.accTaint s.acc s
    rw [e]; exact ⟨.inl rfl, .inl rfl⟩

theorem streamEffect_emit {p e : Bool} {d : BitVec 4} {s t : State} (h : execEmit p e d s = .next t) :
    StreamEffect (.emit p e d) s t := by
  rcases execEmit_next h with rfl | ⟨_, _, _, _, _, rfl⟩
  · exact streamEffect_refl _ t
  · obtain ⟨b, v, r, ph, dn, heq⟩ := afterEmit_eq (pushByte (lbRead s.lb s.bidx.toNat) s)
    rw [heq]
    exact ⟨.inr ⟨lbRead s.lb s.bidx.toNat, p, e, d, rfl, by simp⟩, .inl rfl⟩

theorem streamEffect_exec {i : Instr} {s t : State} (h : exec i s = .next t) : StreamEffect i s t := by
  cases i with
  | regrd idx data => cases h; exact ⟨.inl rfl, .inl rfl⟩
  | regwr idx data => exact streamEffect_of_sameOutside (sameOutside_execRegwr h) _
  | nop => cases h; exact streamEffect_refl _ s
  | plan => cases h; exact streamEffect_of_sameOutside (sameOutside_acceptIdle sameOutside_doPlan s) _
  | rast => cases h; exact streamEffect_of_sameOutside (sameOutside_acceptIdle sameOutside_doRast s) _
  | render => cases h; exact streamEffect_of_sameOutside (sameOutside_acceptIdle sameOutside_doRender s) _
  | abort => cases h; exact streamEffect_of_sameOutside (sameOutside_doAbort s) _
  | pixpush pixel => cases h; exact streamEffect_pixpush pixel s
  | bytepop bus => exact streamEffect_bytepop h
  | fetch d => exact streamEffect_fetch h
  | insert1 | insert2 | insert4 | insert8 => exact streamEffect_insertCopy h _
  | eol d => exact streamEffect_eol h
  | emit p e d => exact streamEffect_emit h

/-- Settles O30: a turn that runs an operation changes the streams as that operation may; of the others only PIXDROP
touches them. -/
theorem streamsAreFirstInFirstOut : Obligations.StreamsAreFirstInFirstOut := by
  intro s t hstep
  obtain ⟨ready, rest, e⟩ := afterFetch_same s
  have hturn := step_next hstep
  rw [e] at hturn
  rcases hturn with ⟨i, hi, hexec⟩ | ⟨_, _, _, _, rfl⟩ | ⟨_, _, rfl⟩ | ⟨hdrop, _, rfl⟩
  · obtain ⟨hout, hpixIn⟩ := streamEffect_exec hexec
    constructor
    · rcases hout with hsame | ⟨b, p, e, d, rfl, hpush⟩
      · exact .inl hsame
      · exact .inr ⟨b, p, e, d, hi, hpush⟩
    · rcases hpixIn with hsame | ⟨p, rfl, hpush⟩ | ⟨p, d, rfl, hfetch⟩
      · exact .inl hsame
      · exact .inr (.inl ⟨p, hi, hpush⟩)
      · exact .inr (.inr (.inl ⟨p, d, hi, hfetch⟩))
  · exact ⟨.inl rfl, .inl rfl⟩
  · exact ⟨.inl rfl, .inl rfl⟩
  · exact ⟨.inl rfl, .inr (.inr (.inr ⟨hdrop, rfl⟩))⟩

end Sys2Proof.Machine
end

section
/-! PROOF. Decoding and encoding, port by port (30 R60 to R75): each row of the CMD, REG and SEQ tables read from the word
that its fields make, both directions of the round trip, the printed words, and the reserved command words (30 R63). -/

namespace Sys2Proof.Machine

/-! ### The CMD table (30 R62, R63) -/

/-- 30 R62, R63: the five assigned words; every other word is reserved. -/
theorem decodeCmd_cases (c : Word) :
    (c = 0#32 ∧ decodeCmd c = .ok .nop) ∨ (c = 1#32 ∧ decodeCmd c = .ok .plan)
    ∨ (c = 2#32 ∧ decodeCmd c = .ok .rast) ∨ (c = 3#32 ∧ decodeCmd c = .ok .render)
    ∨ (c = 4#32 ∧ decodeCmd c = .ok .abort) ∨ (5 ≤ c.toNat ∧ decodeCmd c = .error .reservedCommand) := by
  unfold decodeCmd
  by_cases h0 : c = 0#32
  · simp [h0]
  by_cases h1 : c = 1#32
  · simp [h1]
  by_cases h2 : c = 2#32
  · simp [h2]
  by_cases h3 : c = 3#32
  · simp [h3]
  by_cases h4 : c = 4#32
  · simp [h4]
  refine .inr (.inr (.inr (.inr (.inr ⟨?_, by simp [h0, h1, h2, h3, h4]⟩))))
  simp only [BitVec.toNat_eq, BitVec.toNat_ofNat] at h0 h1 h2 h3 h4
  omega

theorem decodeCmd_reserved {c : Word} (hc : 5 ≤ c.toNat) : decodeCmd c = .error .reservedCommand := by
  rcases decodeCmd_cases c with ⟨rfl, _⟩ | ⟨rfl, _⟩ | ⟨rfl, _⟩ | ⟨rfl, _⟩ | ⟨rfl, _⟩ | ⟨_, e⟩
  case inr.inr.inr.inr.inr => exact e
  all_goals exact absurd hc (by decide)

/-! ### The REG table (30 R61) -/

@[simp] theorem decodeReg_read (idx : BitVec 4) (data : Word) :
    decodeReg (regBundle false idx data) = .regrd idx data := by simp [decodeReg]

theorem decodeReg_write {idx : BitVec 4} (hidx : idx ≠ 0#4) (data : Word) :
    decodeReg (regBundle true idx data) = .regwr idx data := by simp [decodeReg, hidx]

/-- 30 R62: a write of an assigned word to index 0 is that command. -/
theorem decodeReg_command {c : Word} {i : Instr} (hc : decodeCmd c = .ok i) :
    decodeReg (regBundle true 0#4 c) = i := by simp [decodeReg, hc]

/-- 30 R63: a write of a reserved word to index 0 stays a REGWR. -/
theorem decodeReg_reserved {c : Word} (hc : 5 ≤ c.toNat) :
    decodeReg (regBundle true 0#4 c) = .regwr 0#4 c := by simp [decodeReg, decodeCmd_reserved hc]

/-- The one restriction on operands: the word of a write to index 0 is a reserved one (log entry 11). -/
theorem wellFormed_regwr_iff (idx : BitVec 4) (data : Word) :
    (Instr.regwr idx data).WellFormed ↔ (idx = 0#4 → 5 ≤ data.toNat) := by
  simp [Instr.WellFormed, Instr.wellFormed, Nat.lt_iff_add_one_le, imp_iff_not_or]

theorem decodeReg_wellFormed_regwr {idx : BitVec 4} {data : Word} (h : (Instr.regwr idx data).WellFormed) :
    decodeReg (regBundle true idx data) = .regwr idx data := by
  by_cases hidx : idx = 0#4
  · subst hidx; exact decodeReg_reserved ((wellFormed_regwr_iff _ _).1 h rfl)
  · exact decodeReg_write hidx data

/-- All `2^37` bundles are read, each as a well-formed operation that encodes to it (30 R61). -/
theorem encode_decodeReg (b : BitVec 37) : encode (decodeReg b) = .reg b ∧ (decodeReg b).WellFormed := by
  rw [← bundle_fields b]
  generalize regWe b = we, regIdx b = idx, regData b = data
  cases we with
  | false => rw [decodeReg_read]; exact ⟨rfl, rfl⟩
  | true =>
    by_cases hidx : idx = 0#4
    · subst hidx
      rcases decodeCmd_cases data with ⟨rfl, e⟩ | ⟨rfl, e⟩ | ⟨rfl, e⟩ | ⟨rfl, e⟩ | ⟨rfl, e⟩ | ⟨hreserved, _⟩
      case inr.inr.inr.inr.inr =>
        rw [decodeReg_reserved hreserved]
        exact ⟨rfl, (wellFormed_regwr_iff _ _).2 fun _ => hreserved⟩
      all_goals rw [decodeReg_command e]; exact ⟨rfl, rfl⟩
    · rw [decodeReg_write hidx]
      exact ⟨rfl, (wellFormed_regwr_iff _ _).2 fun h => absurd h hidx⟩

/-! ### The SEQ table (30 R75) -/

/-- The SEQ table over the selector's fields instead of its bits. -/
theorem decodeSeq_seqWord (ph : BitVec 2) (p e : Bool) (d : BitVec 4) :
    decodeSeq (seqWord ph p e d)
      = if ph = 0#2 then .error .seqIdle
        else if ph = 1#2 then
          if p then decodeInsert e d else if e then .ok (.eol d) else .ok (.fetch d)
        else if ph = 2#2 then .ok (.emit p e d) else .error .seqPhaseThree := by
  obtain ⟨hph, hp, he, hd⟩ := seqWord_fields ph p e d
  simp only [decodeSeq, hph, hp, he, hd]

theorem decodeSeq_idle (p e : Bool) (d : BitVec 4) : decodeSeq (seqWord 0#2 p e d) = .error .seqIdle :=
  decodeSeq_seqWord _ _ _ _

theorem decodeSeq_insert (e : Bool) (d : BitVec 4) : decodeSeq (seqWord 1#2 true e d) = decodeInsert e d :=
  decodeSeq_seqWord _ _ _ _

theorem decodeSeq_eol (d : BitVec 4) : decodeSeq (seqWord 1#2 false true d) = .ok (.eol d) :=
  decodeSeq_seqWord _ _ _ _

theorem decodeSeq_fetch (d : BitVec 4) : decodeSeq (seqWord 1#2 false false d) = .ok (.fetch d) :=
  decodeSeq_seqWord _ _ _ _

theorem decodeSeq_emit (p e : Bool) (d : BitVec 4) : decodeSeq (seqWord 2#2 p e d) = .ok (.emit p e d) :=
  decodeSeq_seqWord _ _ _ _

theorem decodeSeq_phaseThree (p e : Bool) (d : BitVec 4) :
    decodeSeq (seqWord 3#2 p e d) = .error .seqPhaseThree :=
  decodeSeq_seqWord _ _ _ _

/-- A selector is made of its fields. -/
theorem seqWord_of_fields :
    ∀ v : BitVec 8, seqWord (v.extractLsb' 6 2) (v.getLsbD 5) (v.getLsbD 4) (v.extractLsb' 0 4) = v := by decide

theorem phaseField_cases : ∀ ph : BitVec 2, ph = 0#2 ∨ ph = 1#2 ∨ ph = 2#2 ∨ ph = 3#2 := by decide

/-- An INSERT row fixes the DEPTH field and keeps the EOLC bit as an operand. -/
theorem encode_of_decodeInsert {e : Bool} {d : BitVec 4} {i : Instr} (h : decodeInsert e d = .ok i) :
    encode i = .seq (seqWord 1#2 true e d) ∧ i.WellFormed := by
  unfold decodeInsert at h
  split_ifs at h with h1 h2 h4 h8
  all_goals cases h; subst d; exact ⟨rfl, rfl⟩

theorem encode_of_decodeSeq {v : BitVec 8} {i : Instr} (h : decodeSeq v = .ok i) :
    encode i = .seq v ∧ i.WellFormed := by
  rw [← seqWord_of_fields v] at h ⊢
  generalize v.extractLsb' 6 2 = ph, v.getLsbD 5 = p, v.getLsbD 4 = e, v.extractLsb' 0 4 = d at h ⊢
  rcases phaseField_cases ph with rfl | rfl | rfl | rfl
  · rw [decodeSeq_idle] at h; cases h
  · cases p with
    | true => rw [decodeSeq_insert] at h; exact encode_of_decodeInsert h
    | false =>
      cases e with
      | true => rw [decodeSeq_eol] at h; cases h; exact ⟨rfl, rfl⟩
      | false => rw [decodeSeq_fetch] at h; cases h; exact ⟨rfl, rfl⟩
  · rw [decodeSeq_emit] at h; cases h; exact ⟨rfl, rfl⟩
  · rw [decodeSeq_phaseThree] at h; cases h

/-! ### The round trip -/

/-- Settles O7: each operation is read back from the row of the table that its encoding fills in. -/
theorem decodeOfEncodeIsTheOperation : Obligations.DecodeOfEncodeIsTheOperation := by
  intro i hi
  cases i with
  | regrd idx data => exact congrArg Except.ok (decodeReg_read idx data)
  | regwr idx data => exact congrArg Except.ok (decodeReg_wellFormed_regwr hi)
  | nop | plan | rast | render | abort => exact congrArg Except.ok (decodeReg_command rfl)
  | pixpush pixel => rfl
  | bytepop bus => rfl
  | fetch d => exact decodeSeq_fetch d
  | insert1 e => exact decodeSeq_insert e 1#4
  | insert2 e => exact decodeSeq_insert e 2#4
  | insert4 e => exact decodeSeq_insert e 4#4
  | insert8 e => exact decodeSeq_insert e 8#4
  | eol d => exact decodeSeq_eol d
  | emit p e d => exact decodeSeq_emit p e d

/-- Settles O8: on every port the word is made of the fields that its reading carries. -/
theorem encodeOfDecodeIsTheWord : Obligations.EncodeOfDecodeIsTheWord := by
  intro w i h
  cases w with
  | reg b => cases h; exact encode_decodeReg b
  | pix pixel => cases h; exact ⟨rfl, rfl⟩
  | byte bus => cases h; exact ⟨rfl, rfl⟩
  | seq v => exact encode_of_decodeSeq h

/-- Settles O9: nine closed words, evaluated. -/
theorem printedWordsDecode : Obligations.PrintedWordsDecode := by
  unfold Obligations.PrintedWordsDecode
  decide

/-! ### Reserved command words (30 R63, 60 R170) -/

theorem issueCommand_reserved {c : Word} (hc : 5 ≤ c.toNat) (s : State) : issueCommand c s = badCommand s := by
  rcases issueCommand_cases c s with ⟨rfl, _⟩ | ⟨rfl, _⟩ | ⟨rfl, _⟩ | ⟨rfl, _⟩ | ⟨rfl, _⟩ | ⟨_, e⟩
  case inr.inr.inr.inr.inr => exact e
  all_goals exact absurd hc (by decide)

theorem badCommand_busy {s : State} (hbusy : s.phase ≠ .idle) : badCommand s = setOvr s :=
  ((badCommand_cases s).resolve_right fun h => hbusy h.1).2

theorem badCommand_idle {s : State} (hidle : s.phase = .idle) :
    badCommand s = { s with err := .badCmd, faultSeen := true } :=
  ((badCommand_cases s).resolve_left fun h => h.1 hidle).2.trans (raiseError_other rfl s)

theorem exec_regwr_reserved {c : Word} (hc : 5 ≤ c.toNat) (s : State) :
    exec (.regwr 0#4 c) s = .next (badCommand s) := congrArg Host.Outcome.next (issueCommand_reserved hc s)

/-- Settles O10: a reserved word is no command in the table, and issued it is a bad command. -/
theorem reservedCommandWords : Obligations.ReservedCommandWords := by
  intro s c hc
  refine ⟨decodeCmd_reserved hc, congrArg Except.ok (decodeReg_reserved hc), fun hidle => ?_, fun hbusy => ?_⟩
  · rw [exec_regwr_reserved hc, badCommand_idle ((busy_eq_false s).1 hidle)]
  · rw [exec_regwr_reserved hc, badCommand_busy ((busy_eq_true s).1 hbusy)]; rfl

end Sys2Proof.Machine
end

section
/-! PROOF. The host's port operations one by one: what a REGRD replies (40 R81), what a REGWR does at each index (40 R83
to R85; 60 R175), and the two ends of the streams that the host holds (40 R86, R87). -/

namespace Sys2Proof.Machine

/-! ### Register reads (40 R81) -/

theorem regRead_unassigned {idx : BitVec 4} (hidx : 10 ≤ idx.toNat) (s : State) : regRead idx s = 0#32 := by
  obtain ⟨k, hk⟩ := Nat.exists_eq_add_of_le' hidx
  rw [regRead, hk]
  rfl

/-- 40 R81: the configuration registers and `DEPTH` are read zero-extended. -/
theorem regRead_extended (s : State) :
    (regRead 2#4 s).toNat = s.palLen.toNat ∧ (regRead 3#4 s).toNat = s.srcW.toNat
      ∧ (regRead 4#4 s).toNat = s.srcH.toNat ∧ (regRead 5#4 s).toNat = s.scale.toNat
      ∧ (regRead 6#4 s).toNat = s.depth.toNat := by
  and_intros <;> exact BitVec.toNat_setWidth_of_le (by decide)

/-- Settles O12: the reply is the register read at that index, and the `STATUS` word is the number of its bits. -/
theorem registerReadReplies : Obligations.RegisterReadReplies := by
  intro s idx data
  obtain ⟨hpalLen, hsrcW, hsrcH, hscale, hdepth⟩ := regRead_extended s
  refine ⟨regRead idx s, rfl, rfl, ?_, ?_, ?_, ?_, ?_, ?_, ?_, ?_, ?_, ?_, fun hidx => regRead_unassigned hidx s⟩
  all_goals rintro rfl
  · rfl
  · exact statusWordBits s
  · exact hpalLen
  · exact hsrcW
  · exact hsrcH
  · exact hscale
  · exact hdepth
  · rfl
  · rfl
  · rfl

/-! ### Configuration writes (40 R84) -/

theorem isConfigIndex_iff (idx : BitVec 4) : isConfigIndex idx = true ↔ 2 ≤ idx.toNat ∧ idx.toNat ≤ 5 := by
  simp [isConfigIndex]

theorem configIndex_cases {idx : BitVec 4} (hidx : isConfigIndex idx = true) :
    idx = 2#4 ∨ idx = 3#4 ∨ idx = 4#4 ∨ idx = 5#4 := by
  revert idx; decide

theorem exec_regwr_config {idx : BitVec 4} (hidx : isConfigIndex idx = true) (data : Word) (s : State) :
    exec (.regwr idx data) s = .next (configWrite idx data s) := by
  rcases configIndex_cases hidx with rfl | rfl | rfl | rfl <;> rfl

theorem configWrite_busy {s : State} (hbusy : s.phase ≠ .idle) (idx : BitVec 4) (data : Word) :
    configWrite idx data s = setOvr s := ((configWrite_cases idx data s).resolve_right fun h => hbusy h.1).2

theorem configWrite_idle {s : State} (hidle : s.phase = .idle) (idx : BitVec 4) (data : Word) :
    configWrite idx data s = dropPlan (configStore idx (configValue data) s) :=
  ((configWrite_cases idx data s).resolve_left fun h => h.1 hidle).2

/-- 30 R65: what is stored is the low half of the word. -/
theorem configValue_toNat (data : Word) : (configValue data).toNat = data.toNat % 65536 :=
  BitVec.extractLsb'_toNat 0 16 data

/-- 40 R84: the register of the index takes the value, the other three keep theirs. -/
theorem configStore_registers {idx : BitVec 4} (hidx : isConfigIndex idx = true) (v : Half) (s : State) :
    (configStore idx v s).palLen = (if idx = 2#4 then v else s.palLen)
      ∧ (configStore idx v s).srcW = (if idx = 3#4 then v else s.srcW)
      ∧ (configStore idx v s).srcH = (if idx = 4#4 then v else s.srcH)
      ∧ (configStore idx v s).scale = (if idx = 5#4 then v else s.scale) := by
  rcases configIndex_cases hidx with rfl | rfl | rfl | rfl <;> exact ⟨rfl, rfl, rfl, rfl⟩

/-- 40 R84: the plan goes with the old configuration; beside the registers nothing else changes. -/
theorem dropPlan_configStore_frame (idx : BitVec 4) (v : Half) (s : State) :
    PlanDropped (dropPlan (configStore idx v s)) ∧ SameFlags s (dropPlan (configStore idx v s))
      ∧ SameSequencer s (dropPlan (configStore idx v s)) ∧ SameOutside s (dropPlan (configStore idx v s))
      ∧ SameRun s (dropPlan (configStore idx v s)) ∧ (dropPlan (configStore idx v s)).faultSeen = s.faultSeen := by
  obtain ⟨p, w, h, c, e⟩ := configStore_eq idx v s
  rw [e]
  exact ⟨by and_intros <;> rfl, by and_intros <;> rfl, by and_intros <;> rfl, sameOutside_refl s, ⟨rfl, rfl⟩, rfl⟩

/-- Settles O13: a busy block drops the write; an idle one stores the low half and drops the plan. -/
theorem configurationWrite : Obligations.ConfigurationWrite := by
  intro s idx data hlo hhi
  have hidx := (isConfigIndex_iff idx).2 ⟨hlo, hhi⟩
  rw [exec_regwr_config hidx]
  refine ⟨fun hbusy => ⟨_, rfl, configWrite_busy ((busy_eq_true s).1 hbusy) idx data⟩, fun hidle => ⟨_, rfl, ?_⟩⟩
  rw [configWrite_idle ((busy_eq_false s).1 hidle)]
  obtain ⟨hpalLen, hsrcW, hsrcH, hscale⟩ := configStore_registers hidx (configValue data) s
  simp only [← configValue_toNat, ← apply_ite BitVec.toNat]
  exact ⟨congrArg _ hpalLen, congrArg _ hsrcW, congrArg _ hsrcH, congrArg _ hscale,
    dropPlan_configStore_frame idx (configValue data) s⟩

/-! ### Other writes (40 R85) -/

/-- Settles O14: such an index is neither `CMD` nor a configuration register. -/
theorem otherWritesAreIgnored : Obligations.OtherWritesAreIgnored := by
  intro s idx data hidx
  have hcmd : idx ≠ 0#4 := by rintro rfl; revert hidx; decide
  have hconfig : ¬ isConfigIndex idx = true := by
    rw [isConfigIndex_iff]
    rcases hidx with rfl | hhigh
    · decide
    · omega
  exact (if_neg hcmd).trans (if_neg hconfig)

/-! ### Command issue (40 R83, 60 R175) -/

/-- Settles O15: each row of the CMD table is a branch of command issue. -/
theorem registerZeroIssuesCommands : Obligations.RegisterZeroIssuesCommands := by
  intro s c i hc
  rcases decodeCmd_cases c with ⟨rfl, e⟩ | ⟨rfl, e⟩ | ⟨rfl, e⟩ | ⟨rfl, e⟩ | ⟨rfl, e⟩ | ⟨_, e⟩
  case inr.inr.inr.inr.inr => rw [e] at hc; cases hc
  all_goals cases e.symm.trans hc; rfl

/-- Settles O16: a command that has to be accepted, and a reserved word, only set `OVR` on a busy block. -/
theorem busyDropsCommands : Obligations.BusyDropsCommands := by
  intro s hbusy
  have hphase := (busy_eq_true s).1 hbusy
  exact ⟨⟨_, rfl, acceptIdle_busy doPlan hphase⟩, ⟨_, rfl, acceptIdle_busy doRast hphase⟩,
    ⟨_, rfl, acceptIdle_busy doRender hphase⟩,
    fun c hc => ⟨_, exec_regwr_reserved hc s, badCommand_busy hphase⟩⟩

/-! ### The host's ends of the streams (40 R86, R87) -/

/-- 20 R48: a turn with an event on the agenda takes it off and runs it. -/
theorem step_eq_runEvent {s : State} {e : Event} {rest : List Event} (h : s.agenda = e :: rest) :
    step s = runEvent e { s with agenda := rest } := by rw [step, turn, h]

/-- Settles O28: PIXPUSH and PIXDROP are their effects on `IN`; ABORT and reset keep what lies outside the block. -/
theorem pixpushAppends : Obligations.PixpushAppends := by
  refine ⟨fun s p => ⟨rfl, rfl⟩, fun s rest h => step_eq_runEvent h, fun s => ?_, fun s rest h => ?_⟩
  · obtain ⟨_, _, ⟨hpixIn, _⟩, _⟩ := sameOutside_doAbort s
    exact ⟨doAbort s, rfl, hpixIn⟩
  · exact ⟨_, step_eq_runEvent h, rfl⟩

theorem execBytepop_cons {s : State} {b : Byte} {rest : List Byte} (h : s.out = b :: rest) (bus : Byte) :
    execBytepop bus s = .next { s with out := rest, received := s.received ++ [b] } := by rw [execBytepop, h]

theorem execBytepop_nil {s : State} (h : s.out = []) (bus : Byte) : execBytepop bus s = .next s := by
  rw [execBytepop, h]

/-- Settles O29: the two cases of `OUT`. -/
theorem bytepopTakesTheHead : Obligations.BytepopTakesTheHead := fun _ bus =>
  ⟨fun _ _ h => execBytepop_cons h bus, fun h => execBytepop_nil h bus⟩

end Sys2Proof.Machine
end

section
/-! PROOF. The planner: the depth table (41 R92), the registers of a valid plan (41 R104), and PLAN, test by test (41
R99 to R101). The table rests on `depthOf_le_iff`: a depth is at least `depth(p)` exactly when it can index `p`
entries. -/

namespace Sys2Proof.Machine

/-! ### The depth table (41 R92) -/

theorem depthOf_eq_one {p : Nat} (h : p ≤ 2) : depthOf p = 1 := by rw [depthOf, if_pos h]

theorem depthOf_eq_two {p : Nat} (hlo : 3 ≤ p) (hhi : p ≤ 4) : depthOf p = 2 := by
  rw [depthOf, if_neg (by omega), if_pos hhi]

theorem depthOf_eq_four {p : Nat} (hlo : 5 ≤ p) (hhi : p ≤ 16) : depthOf p = 4 := by
  rw [depthOf, if_neg (by omega), if_neg (by omega), if_pos hhi]

theorem depthOf_eq_eight {p : Nat} (h : 17 ≤ p) : depthOf p = 8 := by
  rw [depthOf, if_neg (by omega), if_neg (by omega), if_neg (by omega)]

/-- The depths from `depth(p)` up are those that can index `p` entries. -/
theorem depthOf_le_iff {p d : Nat} (hp : p ≤ 256) (hd : IsDepth d) : depthOf p ≤ d ↔ p ≤ 2 ^ d := by
  unfold depthOf
  rcases hd with rfl | rfl | rfl | rfl
  all_goals split_ifs <;> omega

theorem le_two_pow_depthOf {p : Nat} (hp : p ≤ 256) : p ≤ 2 ^ depthOf p :=
  (depthOf_le_iff hp (isDepth_depthOf p)).1 le_rfl

/-- What can index `q` entries can index fewer. -/
theorem depthOf_mono {p q : Nat} (hpq : p ≤ q) (hq : q ≤ 256) : depthOf p ≤ depthOf q :=
  (depthOf_le_iff (hpq.trans hq) (isDepth_depthOf q)).2 (hpq.trans (le_two_pow_depthOf hq))

/-- Settles O17: smallest and monotonic by `depthOf_le_iff`; each row of the table is its range of `p`. -/
theorem depthIsTheSmallest : Obligations.DepthIsTheSmallest := by
  refine ⟨fun p hp => ⟨isDepth_depthOf p, le_two_pow_depthOf hp, fun d hd => (depthOf_le_iff hp hd).2⟩,
    fun p q => depthOf_mono, fun p h => ?_, fun p hlo hhi => ?_, fun p hlo hhi => ?_, fun p hlo _ => ?_⟩
  · rw [depthOf_eq_one h]; decide
  · rw [depthOf_eq_two hlo hhi]; decide
  · rw [depthOf_eq_four hlo hhi]; decide
  · rw [depthOf_eq_eight hlo]; decide

/-! ### The registers of a valid plan (41 R104) -/

/-- 41 R96: the bytes of a scanline hold its bits, with less than a byte to spare. -/
theorem bytesPerLine_bits (d n : Nat) : n * d ≤ 8 * bytesPerLine d n ∧ 8 * bytesPerLine d n ≤ n * d + 7 := by
  unfold bytesPerLine; omega

/-- 41 R104 (e): the bytes of a scanline hold its pixels, and one byte less would not. -/
theorem IsDepth.bytesPerLine_pixels {d n : Nat} (hd : IsDepth d) (hn : 0 < n) :
    n ≤ bytesPerLine d n * ppb d ∧ (bytesPerLine d n - 1) * ppb d < n := by
  rcases hd with rfl | rfl | rfl | rfl <;> simp only [bytesPerLine, ppb, Nat.reduceDiv] <;> omega

theorem PlanHolds.depth_eq {s : State} (h : PlanHolds s) : s.depth = BitVec.ofNat 4 (depthOf s.palLen.toNat) := by
  obtain ⟨_, _, _, _, hdepth, _⟩ := h
  rw [← hdepth, BitVec.ofNat_toNat, BitVec.setWidth_eq]

theorem PlanHolds.outW_pos {s : State} (h : PlanHolds s) : 0 < s.outW.toNat := by
  obtain ⟨_, _, hsrcW, hscale, _, houtW, _⟩ := h
  exact houtW ▸ Nat.mul_pos hsrcW hscale

/-- Settles O19: the registers of a valid plan are the planner's `depth`, `ow` and `bps` for the configuration. -/
theorem planRegisterProperties : Obligations.PlanRegisterProperties := by
  refine ⟨fun s hinv hvalid => ?_, fun p q => depthOf_mono⟩
  have hplan := hinv.1 hvalid
  have hreg := hplan.depth_eq
  have hpixels := hplan.isDepth.bytesPerLine_pixels hplan.outW_pos
  have hbits := bytesPerLine_bits s.depth.toNat s.outW.toNat
  obtain ⟨_, hmax, _, _, hdepth, _, _, hbps, _⟩ := hplan
  rw [← hbps] at hpixels hbits
  refine ⟨fun h => ?_, fun hlo hhi => ?_, fun hlo hhi => ?_, fun hlo => ?_, hdepth ▸ le_two_pow_depthOf hmax,
    hbits.1, hbits.2, hpixels⟩
  · rw [hreg, depthOf_eq_one h.le]
  · rw [hreg, depthOf_eq_two hlo hhi]
  · rw [hreg, depthOf_eq_four hlo hhi]
  · rw [hreg, depthOf_eq_eight hlo]

/-! ### The planner's tests in order (41 R99) -/

theorem planOf_paletteTooBig {s : State} (h : 256 < s.palLen.toNat) : planOf s = .failure .paletteTooBig := if_pos h

theorem planOf_paletteTooSmall {s : State} (hbig : ¬ 256 < s.palLen.toNat) (h : s.palLen.toNat < 2) :
    planOf s = .failure .paletteTooSmall := (if_neg hbig).trans (if_pos h)

theorem srcW_scale_toNat_eq_zero (s : State) :
    s.srcW.toNat = 0 ∨ s.scale.toNat = 0 ↔ s.srcW = 0#16 ∨ s.scale = 0#16 := by
  simp [BitVec.toNat_eq]

theorem planOf_zeroDim {s : State} (hbig : ¬ 256 < s.palLen.toNat) (hsmall : ¬ s.palLen.toNat < 2)
    (h : s.srcW = 0#16 ∨ s.scale = 0#16) : planOf s = .failure .zeroDim :=
  (if_neg hbig).trans ((if_neg hsmall).trans (if_pos ((srcW_scale_toNat_eq_zero s).2 h)))

/-- Past the first three tests the length of the scanline decides. -/
theorem planOf_of_dims {s : State} (hbig : ¬ 256 < s.palLen.toNat) (hsmall : ¬ s.palLen.toNat < 2)
    (hzero : ¬ (s.srcW = 0#16 ∨ s.scale = 0#16)) :
    planOf s =
      if s.lbBytes < bytesPerLine (depthOf s.palLen.toNat) (s.srcW.toNat * s.scale.toNat) then .failure .lineTooLong
      else .plan (depthOf s.palLen.toNat) (s.srcW.toNat * s.scale.toNat) (s.srcH.toNat * s.scale.toNat)
        (bytesPerLine (depthOf s.palLen.toNat) (s.srcW.toNat * s.scale.toNat)) :=
  (if_neg hbig).trans ((if_neg hsmall).trans (if_neg (mt (srcW_scale_toNat_eq_zero s).1 hzero)))

/-! ### An accepted PLAN (41 R100, R101) -/

/-- What an accepted PLAN leaves alone once the flags are cleared (41 R101). -/
structure KeptByPlan (s t : State) : Prop where
  besides : SameBesidesCommand s t
  sequencer : SameSequencer s t
  run : SameRun s t
  done : t.done = s.done
  ovr : t.ovr = s.ovr

theorem keptByPlan_commitPlan (d ow oh n : Nat) (s : State) : KeptByPlan s (commitPlan d ow oh n s) where
  besides := ⟨⟨rfl, rfl, rfl, rfl⟩, sameOutside_commitPlan d ow oh n s⟩
  sequencer := by and_intros <;> rfl
  run := ⟨rfl, rfl⟩
  done := rfl
  ovr := rfl

theorem keptByPlan_raiseError {code : ErrCode} (h : code.isPlanner = true) (s : State) :
    KeptByPlan s (raiseError code s) where
  besides := ⟨by rw [raiseError_planner h]; exact ⟨rfl, rfl, rfl, rfl⟩, sameOutside_raiseError code s⟩
  sequencer := sameSequencer_raiseError code s
  run := by rw [raiseError_planner h]; exact ⟨rfl, rfl⟩
  done := raiseError_done code s
  ovr := by rw [raiseError_planner h]; rfl

theorem keptByPlan_doPlan (s : State) : KeptByPlan s (doPlan s) := by
  rcases doPlan_cases s with ⟨code, hcode, _, e⟩ | ⟨_, e⟩ <;> rw [e]
  · exact keptByPlan_raiseError hcode s
  · exact keptByPlan_commitPlan _ _ _ _ s

/-- 41 R101: a failure is recorded and the plan goes. -/
theorem doPlan_of_failure {s : State} {code : ErrCode} (h : planOf s = .failure code) :
    (doPlan s).err = code ∧ PlanDropped (doPlan s) := by
  have e : doPlan s = dropPlan { s with err := code, faultSeen := true } := by
    rw [doPlan, h]; exact raiseError_planner (planner_failure h) s
  rw [e]
  exact ⟨rfl, rfl, rfl, rfl, rfl, rfl⟩

/-- 41 R100: a plan goes to its registers. -/
theorem doPlan_of_plan {s : State} {d ow oh n : Nat} (h : planOf s = .plan d ow oh n) :
    doPlan s = commitPlan d ow oh n s := by rw [doPlan, h]

/-- 41 R100: the plan registers after a PLAN that succeeds. -/
theorem doPlan_registers {s : State} {d ow oh n : Nat} (h : planOf s = .plan d ow oh n) :
    (doPlan s).depth.toNat = depthOf s.palLen.toNat ∧ (doPlan s).outW.toNat = s.srcW.toNat * s.scale.toNat
      ∧ (doPlan s).outH.toNat = s.srcH.toNat * s.scale.toNat
      ∧ (doPlan s).bps.toNat = bytesPerLine (depthOf s.palLen.toNat) (s.srcW.toNat * s.scale.toNat) := by
  rw [doPlan_of_plan h]
  obtain ⟨_, _, _, _, hdepth, houtW, houtH, hbps, _⟩ := planHolds_commitPlan h
  exact ⟨hdepth, houtW, houtH, by rw [hbps, hdepth, houtW]; rfl⟩

/-- Settles O18: a busy block drops PLAN; an idle one clears the flags and runs the planner, whose tests decide. -/
theorem planCommand : Obligations.PlanCommand := by
  refine ⟨rfl, fun s hbusy => ⟨_, rfl, acceptIdle_busy doPlan ((busy_eq_true s).1 hbusy)⟩, fun s hidle => ?_⟩
  have hrun : exec .plan s = .next (doPlan (clearFlags s)) :=
    congrArg Host.Outcome.next (acceptIdle_idle doPlan ((busy_eq_false s).1 hidle))
  have hkept := keptByPlan_doPlan (clearFlags s)
  refine ⟨_, hrun, hkept.besides, hkept.sequencer, hkept.run, hkept.done, hkept.ovr, ?_⟩
  split_ifs with hbig hsmall hzero hlong
  · exact doPlan_of_failure (planOf_paletteTooBig (s := clearFlags s) hbig)
  · exact doPlan_of_failure (planOf_paletteTooSmall (s := clearFlags s) hbig hsmall)
  · exact doPlan_of_failure (planOf_zeroDim (s := clearFlags s) hbig hsmall hzero)
  · exact doPlan_of_failure ((planOf_of_dims (s := clearFlags s) hbig hsmall hzero).trans (if_pos hlong))
  · have hplan := (planOf_of_dims (s := clearFlags s) hbig hsmall hzero).trans (if_neg hlong)
    have hregisters := doPlan_registers hplan
    rw [doPlan_of_plan hplan] at hregisters ⊢
    exact ⟨rfl, rfl, rfl, hregisters⟩

end Sys2Proof.Machine
end

section
/-! PROOF. The rasterizer as a function (spec/42): the frame is its output scanlines one after another, and an output pixel
is read back from the high bits of its byte. Both rest on two general facts: a list glued from pieces of one length is read
piece by piece (`take_drop_flatMap`), and the slots of a byte do not overlap (`slotSum_eq_add`). -/

namespace Sys2Proof.Machine

/-! ### Lists glued from pieces of one length -/

/-- Piece `i` of a list glued from pieces of length `b`. -/
theorem take_drop_flatMap {α β : Type} {f : α → List β} {b : Nat} (hlen : ∀ a, (f a).length = b) {l : List α} {i : Nat}
    {a : α} (h : l[i]? = some a) : ((l.flatMap f).drop (i * b)).take b = f a := by
  induction l generalizing i with
  | nil => simp at h
  | cons c l ih =>
    rw [List.flatMap_cons]
    cases i with
    | zero =>
      obtain rfl : c = a := by simpa using h
      rw [Nat.zero_mul, List.drop_zero, List.take_left' (hlen c)]
    | succ i =>
      rw [Nat.succ_mul, Nat.add_comm, ← List.drop_drop, List.drop_left' (hlen c)]
      exact ih (by simpa using h)

/-- Element `k` of a piece of length `b` that starts at `n`. -/
theorem getElem?_of_take_drop {α : Type} {l piece : List α} {n b k : Nat} (h : (l.drop n).take b = piece) (hk : k < b) :
    l[n + k]? = piece[k]? := by
  rw [← h, List.getElem?_take_of_lt hk, List.getElem?_drop]

/-! ### The frame as its output scanlines (42 R113, R117, R119) -/

theorem repeatSeq_eq_flatMap (n : Nat) (l : List Byte) : repeatSeq n l = (List.range n).flatMap fun _ => l := by
  simp [repeatSeq, List.flatMap]

/-- Copy `j` of source scanline `i` stands `i*s + j` scanlines down. -/
theorem scanline_div {i j s : Nat} (hj : j < s) : (i * s + j) / s = i := by
  rw [Nat.mul_comm, Nat.mul_add_div (by omega), Nat.div_eq_of_lt hj, Nat.add_zero]

/-- Output scanline `y` is the packed form of source scanline `y div s`. -/
theorem frame_eq_flatMap (px : List Byte) (w h s d : Nat) :
    frame px w h s d = (List.range (h * s)).flatMap fun y => frameLine px w s d (y / s) := by
  induction h with
  | zero => simp
  | succ h ih =>
    rw [frame_succ, ih, Nat.succ_mul, List.range_add, List.flatMap_append, List.flatMap_map, repeatSeq_eq_flatMap]
    congr 1
    exact List.flatMap_congr fun j hj => by rw [scanline_div (List.mem_range.1 hj)]

/-- Settles O55: `h * s` scanlines of `bytesPerLine d (w * s)` bytes each. -/
theorem frameLength : Obligations.FrameLength := by
  intro px w h s d
  simp only [frame_eq_flatMap, List.length_flatMap, length_frameLine, List.map_const', List.sum_replicate,
    List.length_range, smul_eq_mul]
  ring

/-- The bytes of output scanline `y` (42 R119). -/
theorem take_drop_frame (px : List Byte) {w h s d y : Nat} (hy : y < h * s) :
    ((frame px w h s d).drop (y * bytesPerLine d (w * s))).take (bytesPerLine d (w * s)) = frameLine px w s d (y / s) := by
  rw [frame_eq_flatMap]
  exact take_drop_flatMap (fun _ => length_frameLine ..) (List.getElem?_range hy)

/-- Settles O57: output scanline `i*s + j` is packed from source scanline `(i*s + j) div s = i`. -/
theorem verticalReplication : Obligations.VerticalReplication := by
  intro px w h s d i j hi hj
  have hy : i * s + j < h * s := Nat.mul_comm s i ▸ Nat.mul_add_lt_mul_of_lt_of_lt hi hj
  rw [take_drop_frame px hy, scanline_div hj]

/-! ### A byte and its slots (42 R110, R111) -/

/-- The slots from `m` on add less than the room below the first `m`: a field never reaches out of its slot. -/
theorem slotSum_eq_add {d m n : Nat} (ex : List Byte) (j : Nat) (hmn : m ≤ n) (hn : d * n ≤ 8) :
    ∃ r, slotSum d ex j n = slotSum d ex j m + r ∧ r + 2 ^ (8 - d * n) ≤ 2 ^ (8 - d * m) := by
  induction n, hmn using Nat.le_induction with
  | base => exact ⟨0, rfl, by omega⟩
  | succ n hmn ih =>
    rw [Nat.mul_succ] at hn
    obtain ⟨r, hsum, hroom⟩ := ih (by omega)
    obtain ⟨f, hf, hterm⟩ := slotTerm_eq_mul d ex j n
    have hgap : 8 - d * n = d + slotShift d n := by unfold slotShift; rw [Nat.mul_succ]; omega
    have hfits : f * 2 ^ slotShift d n + 2 ^ slotShift d n ≤ 2 ^ (8 - d * n) := by
      rw [hgap, Nat.pow_add, ← Nat.succ_mul]
      exact Nat.mul_le_mul_right _ hf
    refine ⟨r + f * 2 ^ slotShift d n, by rw [slotSum_succ, hsum, hterm, Nat.add_assoc], ?_⟩
    rw [show 8 - d * (n + 1) = slotShift d n from rfl]
    omega

/-- The slots of a byte add up without overflow. -/
theorem IsDepth.toNat_lineByte {d : Nat} (hd : IsDepth d) (ex : List Byte) (j : Nat) :
    (lineByte d ex j).toNat = slotSum d ex j (ppb d) := by
  obtain ⟨q, hq, hsum⟩ := slotSum_eq_mul d ex j (ppb d) hd.mul_ppb.le
  rw [hd.mul_ppb] at hq hsum
  rw [lineByte_eq_slotSum, BitVec.toNat_ofNat, Nat.mod_eq_of_lt (by omega)]

/-- 42 R115 on one byte: slot `i` of byte `j` reads back as the low `d` bits of its pixel. -/
theorem IsDepth.unpack_lineByte {d : Nat} (hd : IsDepth d) {ex : List Byte} {j i : Nat} (hi : i < ppb d) {p : Byte}
    (hp : ex[j * ppb d + i]? = some p) :
    (lineByte d ex j).toNat / 2 ^ slotShift d i % 2 ^ d = pixelField d p := by
  have hroom : d * i + d ≤ 8 := hd.mul_ppb ▸ Nat.mul_le_mul_left d hi
  obtain ⟨q, -, hq⟩ := slotSum_eq_mul d ex j i (by omega)
  obtain ⟨r, hsum, hr⟩ := slotSum_eq_add ex j hi hd.mul_ppb.le
  have hr : r < 2 ^ slotShift d i := (Nat.lt_add_of_pos_right (Nat.two_pow_pos _)).trans_le hr
  have hgap : 8 - d * i = slotShift d i + d := by unfold slotShift; rw [Nat.mul_succ]; omega
  have hbyte : (lineByte d ex j).toNat = 2 ^ slotShift d i * (2 ^ d * q + pixelField d p) + r := by
    rw [hd.toNat_lineByte, hsum, slotSum_succ, hq, slotTerm_of_getElem? hp, hgap, Nat.pow_add]
    ring
  rw [hbyte, Nat.mul_add_div (Nat.two_pow_pos _), Nat.div_eq_of_lt hr, Nat.add_zero, Nat.mul_add_mod]
  exact Nat.mod_mod _ _

/-- Settles O58: the last byte is the sum of its `ow mod ppb` filled slots, and their room below is 0. -/
theorem paddingIsZero : Obligations.PaddingIsZero := by
  intro row s d hd _ _
  refine ⟨fun hpart => ?_, fun hfull => ?_⟩
  · have hle := Nat.mul_le_mul_left d (Nat.mod_lt (row.length * s) hd.ppb_pos).le
    rw [hd.mul_ppb] at hle
    obtain ⟨q, -, hq⟩ := slotSum_eq_mul d (expandRow s row) (row.length * s / ppb d) (row.length * s % ppb d) hle
    have hend : (expandRow s row).length ≤ row.length * s / ppb d * ppb d + row.length * s % ppb d := by
      rw [length_expandRow, Nat.div_add_mod']
    rw [hd.bytesPerLine_of_mod_ne_zero hpart, Nat.add_sub_cancel, hd.toNat_lineByte,
      slotSum_past hend (Nat.mod_lt _ hd.ppb_pos).le, hq, Nat.mul_mod_right]
  · rw [hd.bytesPerLine_of_mod_eq_zero hfull, Nat.div_mul_cancel (Nat.dvd_of_mod_eq_zero hfull)]

/-! ### Reading a frame back (42 R115) -/

/-- Expanded pixel `x` is source pixel `x div s` (42 R107). -/
theorem getElem?_expandRow {s x : Nat} {row : List Byte} {p : Byte} (hs : 0 < s) (h : row[x / s]? = some p) :
    (expandRow s row)[x]? = some p := by
  have hpiece := take_drop_flatMap (f := List.replicate s) (fun _ => List.length_replicate) h
  have hx := getElem?_of_take_drop hpiece (Nat.mod_lt x hs)
  rwa [Nat.div_add_mod', List.getElem?_replicate_of_lt (Nat.mod_lt x hs)] at hx

theorem getElem?_sourceRow (px : List Byte) {w c : Nat} (r : Nat) (hc : c < w) :
    (sourceRow px w r)[c]? = px[r * w + c]? := (getElem?_of_take_drop rfl hc).symm

/-- Settles O56: the byte of output pixel `(x, y)` is byte `x div ppb` of source scanline `y div s`, whose slot
`x mod ppb` holds source pixel `x div s`. -/
theorem frameUnpacksToTheSource : Obligations.FrameUnpacksToTheSource := by
  intro px w h s d x y hd hlen hx hy
  have hs : 0 < s := Nat.pos_of_ne_zero fun h0 => by simp [h0] at hx
  have hcol : x / s < w := (Nat.div_lt_iff_lt_mul hs).2 hx
  have hrow : y / s < h := (Nat.div_lt_iff_lt_mul hs).2 hy
  have hsource : y / s * w + x / s < px.length := by
    rw [hlen, Nat.mul_comm w h, Nat.mul_comm _ w]
    exact Nat.mul_add_lt_mul_of_lt_of_lt hrow hcol
  obtain ⟨p, hp⟩ : ∃ p, px[y / s * w + x / s]? = some p := ⟨_, List.getElem?_eq_getElem hsource⟩
  have hslot : (expandRow s (sourceRow px w (y / s)))[x / ppb d * ppb d + x % ppb d]? = some p := by
    rw [Nat.div_add_mod']
    exact getElem?_expandRow hs ((getElem?_sourceRow px (y / s) hcol).trans hp)
  have hj := hd.div_ppb_lt_bytesPerLine hx
  have hbyte := (getElem?_of_take_drop (take_drop_frame px hy) hj).trans (getElem?_frameLine hj)
  have hread : unpackPixel (frame px w h s d) d (bytesPerLine d (w * s)) x y = p.toNat % 2 ^ d := by
    rw [unpackPixel, hbyte]
    exact hd.unpack_lineByte (Nat.mod_lt x hd.ppb_pos) hslot
  exact ⟨p, hp, hread, fun hfit => hread.trans (Nat.mod_eq_of_lt hfit)⟩

end Sys2Proof.Machine
end

section
/-! PROOF. The sequencer's selector read from the state (43 R133) and the turn of an idle block (43 R132); the commands
NOP, RAST, RENDER and ABORT (43 R126 to R130). RAST and RENDER rest on what `startFrame` makes of the state: everything
but the sequencer, `DONE` and the run's record is kept. -/

namespace Sys2Proof.Machine

/-! ### The selector of the state (30 R75) -/

theorem eolc_eq_false {s : State} (hcol : s.col.toNat < s.srcW.toNat) : s.eolc = false :=
  decide_eq_false (ne_of_apply_ne BitVec.toNat hcol.ne)

theorem decode_selector_idle {s : State} (hphase : s.phase = .idle) :
    decode (.seq s.selector) = .error .seqIdle := by
  rw [State.selector, hphase]
  exact decodeSeq_idle ..

theorem decode_selector_fetch {s : State} (hphase : s.phase = .pack) (hpixv : s.pixv = false)
    (hcol : s.col.toNat < s.srcW.toNat) : decode (.seq s.selector) = .ok (.fetch s.depth) := by
  rw [State.selector, hphase, hpixv, eolc_eq_false hcol]
  exact decodeSeq_fetch _

theorem decode_selector_insert {s : State} (hphase : s.phase = .pack) (hpixv : s.pixv = true)
    (hcol : s.col.toNat < s.srcW.toNat) : decode (.seq s.selector) = decodeInsert false s.depth := by
  rw [State.selector, hphase, hpixv, eolc_eq_false hcol]
  exact decodeSeq_insert ..

theorem decode_selector_eol {s : State} (hphase : s.phase = .pack) (hpixv : s.pixv = false) (hcol : s.col = s.srcW) :
    decode (.seq s.selector) = .ok (.eol s.depth) := by
  rw [State.selector, hphase, hpixv, State.eolc, decide_eq_true hcol]
  exact decodeSeq_eol _

theorem decode_selector_emit {s : State} (hphase : s.phase = .replay) :
    decode (.seq s.selector) = .ok (.emit s.pixv s.eolc s.depth) := by
  rw [State.selector, hphase]
  exact decodeSeq_emit ..

/-- 30 R75: the INSERT rows at the four depths. -/
theorem decodeInsert_cases {d : BitVec 4} (hd : IsDepth d.toNat) (e : Bool) :
    (d = 1#4 ∧ decodeInsert e d = .ok (.insert1 e)) ∨ (d = 2#4 ∧ decodeInsert e d = .ok (.insert2 e))
    ∨ (d = 4#4 ∧ decodeInsert e d = .ok (.insert4 e)) ∨ (d = 8#4 ∧ decodeInsert e d = .ok (.insert8 e)) := by
  rcases hd with h | h | h | h
  · obtain rfl : d = 1#4 := BitVec.eq_of_toNat_eq h
    exact .inl ⟨rfl, rfl⟩
  · obtain rfl : d = 2#4 := BitVec.eq_of_toNat_eq h
    exact .inr (.inl ⟨rfl, rfl⟩)
  · obtain rfl : d = 4#4 := BitVec.eq_of_toNat_eq h
    exact .inr (.inr (.inl ⟨rfl, rfl⟩))
  · obtain rfl : d = 8#4 := BitVec.eq_of_toNat_eq h
    exact .inr (.inr (.inr ⟨rfl, rfl⟩))

/-- With no pixel held and pixels of the scanline missing, `COL` is not yet `SRC_W`. -/
theorem Taking.col_lt {s : State} (h : Taking s) (hcol : s.col ≠ s.srcW) : s.col.toNat < s.srcW.toNat :=
  lt_of_le_of_ne h.col_le fun he => hcol (BitVec.eq_of_toNat_eq he)

theorem PlanHolds.bps_le_lbBytes {s : State} (h : PlanHolds s) : s.bps.toNat ≤ s.lbBytes := by
  obtain ⟨_, _, _, _, _, _, _, _, _, hfit⟩ := h
  exact hfit

theorem Inv.replay {s : State} (h : Inv s) (hphase : s.phase = .replay) : ReplayInv s ∧ PlanHolds s := by
  obtain ⟨_, hplan, _, _, _, _, hseq⟩ := h
  have hreplay := hseq hphase
  exact ⟨hreplay, hplan.1 hreplay.1⟩

/-- 43 R133: in REPLAY the selector's other fields are 0 but for `DEPTH`. -/
theorem decode_selector_emit_of_inv {s : State} (h : Inv s) (hphase : s.phase = .replay) :
    decode (.seq s.selector) = .ok (.emit false false s.depth) := by
  obtain ⟨hreplay, hplan⟩ := Inv.replay h hphase
  obtain ⟨_, _, _, _, hcol, _, _, _, hpixv, _⟩ := hreplay
  obtain ⟨_, _, hsrcW, _⟩ := hplan
  have heolc : s.eolc = false := eolc_eq_false (by rw [hcol]; exact hsrcW)
  rw [decode_selector_emit hphase, hpixv, heolc]

/-- Settles O6: the rows of the SEQ table by `PHASE`, then `PIXV`, then `COL` or `DEPTH`; the invariant leaves no other
value of them. -/
theorem selectorNamesTheSelectedStep : Obligations.SelectorNamesTheSelectedStep := by
  intro s hinv hbusy
  cases hphase : s.phase with
  | idle => exact absurd hphase hbusy
  | replay => exact .inr (.inr (.inr ⟨rfl, decode_selector_emit_of_inv hinv hphase⟩))
  | pack =>
    obtain ⟨hpack, hplan⟩ := Inv.packing hinv hphase
    cases hpixv : s.pixv with
    | true =>
      obtain ⟨hcol, _⟩ := hpack.taking.held hpixv
      refine .inr (.inl ⟨rfl, rfl, ?_⟩)
      rw [decode_selector_insert hphase hpixv hcol]
      exact decodeInsert_cases hplan.isDepth false
    | false =>
      by_cases hcol : s.col = s.srcW
      · exact .inr (.inr (.inl ⟨rfl, rfl, hcol, decode_selector_eol hphase hpixv hcol⟩))
      · have hlt := hpack.taking.col_lt hcol
        exact .inl ⟨rfl, rfl, hlt, decode_selector_fetch hphase hpixv hlt⟩

/-- Settles O5: the block's turn presents the selector, which names no step while idle. -/
theorem idleBlockTakesNoStep : Obligations.IdleBlockTakesNoStep := by
  intro s hphase hagenda
  have hword : turnWord s = some (.seq s.selector) := by
    rcases hagenda with h | ⟨r, rest, h⟩ <;> rw [turnWord, h]
  rw [step_eq_runWord hword, runWord, decode_selector_idle hphase]

/-! ### The start of a frame (43 R128) -/

theorem sameSetup_startFrame (s : State) : SameSetup s (startFrame s) := by
  by_cases h : s.outH = 0#32
  · rw [startFrame_empty h]; exact sameSetup_refl s
  · rw [startFrame_frame h]; exact sameSetup_refl s

theorem startFrame_ovr (s : State) : (startFrame s).ovr = s.ovr := by
  by_cases h : s.outH = 0#32
  · rw [startFrame_empty h]
  · rw [startFrame_frame h]

/-- An empty frame is done in the step of its command. -/
theorem startFrame_done_of_empty {s : State} (h : s.outH = 0#32) :
    (startFrame s).done = true ∧ SameSequencer s (startFrame s) := by
  rw [startFrame_empty h]
  and_intros <;> rfl

theorem startFrame_started {s : State} (h : s.outH ≠ 0#32) :
    (startFrame s).done = s.done ∧ FrameStarted s (startFrame s) := by
  rw [startFrame_frame h]
  and_intros <;> rfl

/-- 41 R95: a plan has no output scanline exactly when it has no source scanline, for its scale is not 0. -/
theorem PlanHolds.outH_eq_zero_iff {s : State} (h : PlanHolds s) : s.outH = 0#32 ↔ s.srcH = 0#16 := by
  obtain ⟨_, _, _, hscale, _, _, houtH, _⟩ := h
  rw [BitVec.toNat_eq, BitVec.toNat_eq, houtH]
  exact Nat.mul_eq_zero.trans (or_iff_left (Nat.ne_of_gt hscale))

/-- 10 R12: `STATUS` with `PLAN_VALID` and `DONE` alone. -/
theorem statusWord_done {s : State} (hphase : s.phase = .idle) (hplan : s.planValid = true) (hdone : s.done = true)
    (hovr : s.ovr = false) (herr : s.err = .noError) : s.statusWord = 6#32 := by
  simp [State.statusWord, State.busy, hphase, hplan, hdone, hovr, herr, ErrCode.code]

/-! ### NOP, RAST, RENDER and ABORT -/

/-- Settles O21: NOP is a next state and nothing else. -/
theorem nopWritesNothing : Obligations.NopWritesNothing := ⟨rfl, fun _ => rfl⟩

theorem exec_rast_idle {s : State} (hidle : s.phase = .idle) : exec .rast s = .next (doRast (clearFlags s)) :=
  congrArg Host.Outcome.next (acceptIdle_idle doRast hidle)

theorem exec_render_idle {s : State} (hidle : s.phase = .idle) : exec .render s = .next (doRender (clearFlags s)) :=
  congrArg Host.Outcome.next (acceptIdle_idle doRender hidle)

theorem exec_plan_idle {s : State} (hidle : s.phase = .idle) : exec .plan s = .next (doPlan (clearFlags s)) :=
  congrArg Host.Outcome.next (acceptIdle_idle doPlan hidle)

/-- 43 R128, first test: without a plan the error is recorded and nothing else happens. -/
theorem doRast_noPlan {s : State} (h : s.planValid = false) :
    doRast s = { s with err := .noPlan, faultSeen := true } := by
  simp [doRast, h, raiseError_other (code := .noPlan) rfl]

theorem doRast_plan {s : State} (h : s.planValid = true) : doRast s = startFrame s := by simp [doRast, h]

theorem sameSetup_doRast (s : State) : SameSetup s (doRast s) := by
  cases h : s.planValid
  · rw [doRast_noPlan h]; exact sameSetup_refl s
  · rw [doRast_plan h]; exact sameSetup_startFrame s

/-- Settles O22: a busy block drops RAST; an idle one clears the flags and takes the branch of its two tests. -/
theorem rastCommand : Obligations.RastCommand := by
  refine ⟨rfl, fun s hbusy => ⟨_, rfl, acceptIdle_busy doRast ((busy_eq_true s).1 hbusy)⟩,
    fun s hinv hvalid => (hinv.1 hvalid).outH_eq_zero_iff, fun s hidle => ?_⟩
  have hphase := (busy_eq_false s).1 hidle
  obtain ⟨hconfig, hplan⟩ := sameSetup_doRast (clearFlags s)
  have houtside := sameOutside_doRast (clearFlags s)
  refine ⟨_, exec_rast_idle hphase, ⟨hconfig, houtside⟩, hplan, ?_⟩
  split_ifs with hvalid hempty
  · rw [doRast_noPlan (s := clearFlags s) hvalid]
    and_intros <;> rfl
  · rw [Bool.not_eq_false] at hvalid
    rw [doRast_plan (s := clearFlags s) hvalid, startFrame_empty (s := clearFlags s) hempty]
    exact ⟨rfl, rfl, rfl, by and_intros <;> rfl, statusWord_done hphase hvalid rfl rfl rfl⟩
  · rw [Bool.not_eq_false] at hvalid
    rw [doRast_plan (s := clearFlags s) hvalid, startFrame_frame (s := clearFlags s) hempty]
    and_intros <;> rfl

/-- 43 R129: a planning that fails ends RENDER. -/
theorem doRender_of_failure {s : State} {code : ErrCode} (h : planOf s = .failure code) : doRender s = doPlan s := by
  rw [doRender, doPlan, h]

/-- 43 R129: after a planning that succeeds RENDER goes on as RAST from its second test. -/
theorem doRender_of_plan {s : State} {d ow oh n : Nat} (h : planOf s = .plan d ow oh n) :
    doRender s = startFrame (doPlan s) := by rw [doRender, doPlan, h]

/-- What an accepted RENDER leaves alone once the flags are cleared. -/
theorem sameBesidesCommand_doRender (s : State) :
    SameBesidesCommand s (doRender s) ∧ (doRender s).ovr = s.ovr := by
  have hkept := keptByPlan_doPlan s
  refine ⟨⟨?_, sameOutside_doRender s⟩, ?_⟩
  · rcases doRender_cases s with ⟨_, _, e⟩ | ⟨_, _, _, _, _, e⟩ <;> rw [e]
    · exact hkept.besides.1
    · obtain ⟨⟨hpal, hw, hh, hc⟩, _⟩ := sameSetup_startFrame (doPlan s)
      obtain ⟨⟨hpal', hw', hh', hc'⟩, _⟩ := hkept.besides
      exact ⟨hpal.trans hpal', hw.trans hw', hh.trans hh', hc.trans hc'⟩
  · rcases doRender_cases s with ⟨_, _, e⟩ | ⟨_, _, _, _, _, e⟩ <;> rw [e]
    · exact hkept.ovr
    · exact (startFrame_ovr _).trans hkept.ovr

/-- 43 R129: RENDER with a failing planning, flag by flag. -/
theorem doRender_clearFlags_of_failure {s : State} {code : ErrCode} (h : planOf (clearFlags s) = .failure code) :
    (doRender (clearFlags s)).err = code ∧ PlanDropped (doRender (clearFlags s))
      ∧ (doRender (clearFlags s)).done = false ∧ SameSequencer s (doRender (clearFlags s)) := by
  have hkept := keptByPlan_doPlan (clearFlags s)
  rw [doRender_of_failure h]
  obtain ⟨herr, hdropped⟩ := doPlan_of_failure h
  exact ⟨herr, hdropped, hkept.done, hkept.sequencer⟩

/-- 43 R129: RENDER with a planning that succeeds. -/
theorem doRender_clearFlags_of_plan {s : State} {d ow oh n : Nat} (h : planOf (clearFlags s) = .plan d ow oh n) :
    (doRender (clearFlags s)).err = .noError ∧ (doRender (clearFlags s)).planValid = true
      ∧ (doRender (clearFlags s)).depth.toNat = depthOf s.palLen.toNat
      ∧ (doRender (clearFlags s)).outW.toNat = s.srcW.toNat * s.scale.toNat
      ∧ (doRender (clearFlags s)).outH.toNat = s.srcH.toNat * s.scale.toNat
      ∧ (doRender (clearFlags s)).bps.toNat = bytesPerLine (depthOf s.palLen.toNat) (s.srcW.toNat * s.scale.toNat)
      ∧ (if s.srcH = 0#16 then (doRender (clearFlags s)).done = true ∧ SameSequencer s (doRender (clearFlags s))
        else (doRender (clearFlags s)).done = false ∧ FrameStarted s (doRender (clearFlags s))) := by
  obtain ⟨hdepth, houtW, houtH, hbps⟩ := doPlan_registers h
  have hempty := (planHolds_commitPlan h).outH_eq_zero_iff
  rw [doRender_of_plan h]
  obtain ⟨_, hd, how, hoh, hn, hvalid⟩ := sameSetup_startFrame (doPlan (clearFlags s))
  have herr := (keepsErr_startFrame (doPlan (clearFlags s))).err
  rw [doPlan_of_plan h] at hdepth houtW houtH hbps hd how hoh hn hvalid herr ⊢
  refine ⟨herr, hvalid, hd ▸ hdepth, how ▸ houtW, hoh ▸ houtH, hn ▸ hbps, ?_⟩
  split_ifs with hrows
  · exact startFrame_done_of_empty (hempty.2 hrows)
  · exact startFrame_started (mt hempty.1 hrows)

/-- Settles O23: a busy block drops RENDER; an idle one runs the planner, whose tests decide, and after the last of them
starts the frame that the plan makes. -/
theorem renderCommand : Obligations.RenderCommand := by
  refine ⟨rfl, fun s hbusy => ⟨_, rfl, acceptIdle_busy doRender ((busy_eq_true s).1 hbusy)⟩, fun s hidle => ?_⟩
  obtain ⟨hbesides, hovr⟩ := sameBesidesCommand_doRender (clearFlags s)
  refine ⟨_, exec_render_idle ((busy_eq_false s).1 hidle), hbesides, hovr, ?_⟩
  by_cases hbig : 256 < s.palLen.toNat
  · rw [if_pos hbig]
    exact doRender_clearFlags_of_failure (planOf_paletteTooBig (s := clearFlags s) hbig)
  rw [if_neg hbig]
  by_cases hsmall : s.palLen.toNat < 2
  · rw [if_pos hsmall]
    exact doRender_clearFlags_of_failure (planOf_paletteTooSmall (s := clearFlags s) hbig hsmall)
  rw [if_neg hsmall]
  by_cases hzero : s.srcW = 0#16 ∨ s.scale = 0#16
  · rw [if_pos hzero]
    exact doRender_clearFlags_of_failure (planOf_zeroDim (s := clearFlags s) hbig hsmall hzero)
  rw [if_neg hzero]
  have hplan := planOf_of_dims (s := clearFlags s) hbig hsmall hzero
  by_cases hlong : s.lbBytes < (s.srcW.toNat * s.scale.toNat * depthOf s.palLen.toNat + 7) / 8
  · rw [if_pos hlong]
    exact doRender_clearFlags_of_failure (hplan.trans (if_pos hlong))
  · rw [if_neg hlong]
    exact doRender_clearFlags_of_plan (hplan.trans (if_neg hlong))

/-- Settles O24: after a PLAN that succeeds no flag is left to clear, so RAST does what RENDER goes on to; after one
that fails there is no plan. -/
theorem renderIsPlanThenRast : Obligations.RenderIsPlanThenRast := by
  intro s hidle
  have hphase := (busy_eq_false s).1 hidle
  obtain ⟨hplanned, _⟩ := (keptByPlan_doPlan (clearFlags s)).sequencer
  refine ⟨_, _, _, exec_render_idle hphase, exec_plan_idle hphase, exec_rast_idle (hplanned.trans hphase), ?_⟩
  cases h : planOf (clearFlags s) with
  | failure code =>
    obtain ⟨herr, hvalid, _⟩ := doPlan_of_failure h
    have hcode := planner_failure h
    refine ⟨fun hok => ?_, fun _ => ⟨doRender_of_failure h, ?_⟩⟩
    · rw [← herr, hok] at hcode; cases hcode
    · rw [doRast_noPlan (s := clearFlags (doPlan (clearFlags s))) hvalid]
  | plan d ow oh n =>
    rw [doRender_of_plan h, doPlan_of_plan h]
    exact ⟨fun _ => rfl, fun hne => absurd rfl hne⟩

/-- Settles O25: ABORT clears the flags and the sequencer, whatever they held. -/
theorem abortCommand : Obligations.AbortCommand := by
  refine ⟨rfl, fun s => ⟨doAbort s, rfl, by and_intros <;> rfl, rfl, rfl, rfl, rfl, ?_, ?_, ⟨rfl, rfl⟩, rfl⟩⟩
  · exact (sameSetup_doAbort s).2
  · exact ⟨(sameSetup_doAbort s).1, sameOutside_doAbort s⟩

/-- An accepted command has its effect on cleared flags, so it inherits none of them (43 R126). -/
theorem acceptIdle_forgets (effect : State → State) {s : State} (hphase : s.phase = .idle) (a b : Bool) (c : ErrCode) :
    acceptIdle effect { s with done := a, ovr := b, err := c } = acceptIdle effect s :=
  (acceptIdle_idle effect (s := { s with done := a, ovr := b, err := c }) hphase).trans
    (acceptIdle_idle effect hphase).symm

/-- Settles O26: acceptance and ABORT clear the flags before anything reads them. -/
theorem acceptedCommandsForgetTheFlags : Obligations.AcceptedCommandsForgetTheFlags := by
  refine fun s a b c => ⟨rfl, fun hidle => ?_⟩
  have hphase := (busy_eq_false s).1 hidle
  exact ⟨congrArg Host.Outcome.next (acceptIdle_forgets doPlan hphase a b c),
    congrArg Host.Outcome.next (acceptIdle_forgets doRast hphase a b c),
    congrArg Host.Outcome.next (acceptIdle_forgets doRender hphase a b c)⟩

end Sys2Proof.Machine
end

section
/-! PROOF. The micro-steps where they are selected (43 R134 to R141): what each answers, as an equation, and what its
next state is; the bits of `ACC` under the invariant (43 R135); the scanline EOL leaves (43 R140). -/

namespace Sys2Proof.Machine

/-! ### FETCH (43 R134) -/

theorem execFetch_cons {s : State} (hphase : s.phase = .pack) (hpixv : s.pixv = false)
    (hcol : s.col.toNat < s.srcW.toNat) (hvalid : s.planValid = true) {p : Byte} {rest : List Byte}
    (hin : s.pixIn = p :: rest) (d : BitVec 4) : execFetch d s = .next (takePixel p rest s) := by
  have hne : s.col ≠ s.srcW := ne_of_apply_ne BitVec.toNat hcol.ne
  rw [execFetch, if_pos ⟨hphase, hpixv, hne⟩, if_neg (by simp [hvalid]), if_neg (by omega), hin]

theorem execFetch_nil {s : State} (hphase : s.phase = .pack) (hpixv : s.pixv = false)
    (hcol : s.col.toNat < s.srcW.toNat) (hvalid : s.planValid = true) (hin : s.pixIn = []) (d : BitVec 4) :
    execFetch d s = .next s := by
  have hne : s.col ≠ s.srcW := ne_of_apply_ne BitVec.toNat hcol.ne
  rw [execFetch, if_pos ⟨hphase, hpixv, hne⟩, if_neg (by simp [hvalid]), if_neg (by omega), hin]

/-- Settles O31: the two cases of `IN`. -/
theorem fetchTakesTheHead : Obligations.FetchTakesTheHead := by
  refine fun s d hphase hpixv hcol hvalid =>
    ⟨fun p rest hin => ?_, fun hin => execFetch_nil hphase hpixv hcol hvalid hin d⟩
  refine ⟨_, execFetch_cons hphase hpixv hcol hvalid hin d, ?_⟩
  exact ⟨rfl, rfl, rfl, rfl, rfl, rfl, rfl, rfl, rfl, rfl, rfl, rfl, rfl, fun _ => rfl, by and_intros <;> rfl⟩

/-! ### INSERT (43 R135) -/

theorem insertCopy_full {d : Nat} {s : State} (h : InsertReady d s) (hfull : s.slot.toNat + 1 = ppb d) :
    insertCopy d s = .next (nextCopy (finishByte d s)) := by
  obtain ⟨hphase, hpixv, hdepth, hvalid, hslot, hroom⟩ := h
  rw [insertCopy, if_pos ⟨hphase, hpixv, hdepth⟩, if_neg (by simp [hvalid]), if_neg (by omega), if_pos hfull,
    if_pos (hroom hfull)]

theorem insertCopy_notFull {d : Nat} {s : State} (h : InsertReady d s) (hfull : s.slot.toNat + 1 ≠ ppb d) :
    insertCopy d s = .next (nextCopy (extendByte d s)) := by
  obtain ⟨hphase, hpixv, hdepth, hvalid, hslot, _⟩ := h
  rw [insertCopy, if_pos ⟨hphase, hpixv, hdepth⟩, if_neg (by simp [hvalid]), if_neg (by omega), if_neg hfull]

/-- 43 R135, second `if`, with a pixel held. -/
theorem nextCopy_count {s : State} (hpixv : s.pixv = true) :
    (s.hrep.toNat + 1 = s.scale.toNat →
      (nextCopy s).pixv = false ∧ (nextCopy s).hrep = 0#16 ∧ (nextCopy s).col = s.col + 1)
    ∧ (s.hrep.toNat + 1 ≠ s.scale.toNat →
      (nextCopy s).pixv = true ∧ (nextCopy s).hrep = s.hrep + 1 ∧ (nextCopy s).col = s.col) := by
  rcases nextCopy_cases s with ⟨hlast, e⟩ | ⟨hmore, e⟩ <;> rw [e]
  · exact ⟨fun _ => ⟨rfl, rfl, rfl⟩, fun h => absurd hlast h⟩
  · exact ⟨fun h => absurd h hmore, fun _ => ⟨hpixv, rfl, rfl⟩⟩

/-- 43 R135: the INSERT that fills a byte, `b` being what `LB[BIDX]` then holds. -/
theorem insertResult_full {full : Prop} {s : State} (hpixv : s.pixv = true) (hfull : full) (b kept : Byte) (n : Nat) :
    InsertResult b kept full s (nextCopy
      { s with
        lb := memPut s.lb s.bidx.toNat b, draws := n, bidx := s.bidx + 1, acc := 0#8, slot := 0#3,
        accTaint := false }) := by
  have hcount := nextCopy_count (s :=
    { s with
      lb := memPut s.lb s.bidx.toNat b, draws := n, bidx := s.bidx + 1, acc := 0#8, slot := 0#3,
      accTaint := false }) hpixv
  obtain ⟨v, r, c, e⟩ := nextCopy_eq
    { s with
      lb := memPut s.lb s.bidx.toNat b, draws := n, bidx := s.bidx + 1, acc := 0#8, slot := 0#3, accTaint := false }
  rw [e] at hcount ⊢
  refine ⟨fun _ => ⟨memGet_memPut_same .., fun a ha => memGet_memPut_ne _ _ _ _ ha, rfl, rfl, rfl⟩,
    fun h => absurd hfull h, hcount.1, hcount.2, ?_⟩
  and_intros <;> rfl

/-- 43 R135: the INSERT that leaves room in the byte. -/
theorem insertResult_notFull {full : Prop} {d : Nat} {s : State} (hpixv : s.pixv = true) (hfull : ¬ full)
    (stored : Byte) :
    InsertResult stored (putPixel d s.slot.toNat s.acc s.pixreg) full s (nextCopy (extendByte d s)) := by
  have hcount := nextCopy_count (s := extendByte d s) hpixv
  obtain ⟨v, r, c, e⟩ := nextCopy_eq (extendByte d s)
  rw [e] at hcount ⊢
  refine ⟨fun h => absurd h hfull, fun _ => ⟨fun _ => rfl, rfl, rfl, rfl⟩, hcount.1, hcount.2, ?_⟩
  and_intros <;> rfl

/-- 93 U1: no free byte is drawn where the byte is determined. -/
theorem ByteDetermined.taints {s : State} (h : ByteDetermined s) : (s.accTaint || taints s) = false := by
  obtain ⟨hacc, hmode | hpixel⟩ := h
  · rw [hacc, taints_truncate hmode]; rfl
  · rw [hacc, taints_inPalette hpixel]; rfl

/-- The copy count draws no byte. -/
theorem nextCopy_drawn (s : State) : (nextCopy s).draws = s.draws ∧ (nextCopy s).accTaint = s.accTaint := by
  obtain ⟨v, r, c, e⟩ := nextCopy_eq s
  rw [e]; exact ⟨rfl, rfl⟩

/-- 43 R135 at every depth, for determined bytes. -/
theorem insertCopy_determined {d : Nat} {s : State} (h : InsertReady d s) (hdet : ByteDetermined s) :
    ∃ t, insertCopy d s = .next t ∧ NothingDrawn s t
      ∧ InsertResult (putPixel d s.slot.toNat s.acc s.pixreg) (putPixel d s.slot.toNat s.acc s.pixreg)
          (s.slot.toNat + 1 = ppb d) s t := by
  have htaints := ByteDetermined.taints hdet
  have ⟨_, hpixv, _⟩ := h
  by_cases hfull : s.slot.toNat + 1 = ppb d
  · refine ⟨_, insertCopy_full h hfull, ?_⟩
    rw [finishByte, htaints]
    exact ⟨nextCopy_drawn _, insertResult_full hpixv hfull _ _ s.draws⟩
  · obtain ⟨hdraws, haccTaint⟩ := nextCopy_drawn (extendByte d s)
    exact ⟨_, insertCopy_notFull h hfull, ⟨hdraws, haccTaint.trans htaints⟩, insertResult_notFull hpixv hfull _⟩

/-- 93 U1 at every depth, for tainted bytes. -/
theorem insertCopy_tainted {d : Nat} {s : State} (h : InsertReady d s) (htaints : (s.accTaint || taints s) = true) :
    ∃ t, insertCopy d s = .next t
      ∧ InsertResult (Config.freeByte s.draws) (putPixel d s.slot.toNat s.acc s.pixreg) (s.slot.toNat + 1 = ppb d) s t
      ∧ (s.slot.toNat + 1 = ppb d → t.draws = s.draws + 1 ∧ t.accTaint = false)
      ∧ (s.slot.toNat + 1 ≠ ppb d → t.draws = s.draws ∧ t.accTaint = true) := by
  have ⟨_, hpixv, _⟩ := h
  by_cases hfull : s.slot.toNat + 1 = ppb d
  · refine ⟨_, insertCopy_full h hfull, ?_⟩
    rw [finishByte, htaints]
    exact ⟨insertResult_full hpixv hfull _ _ (s.draws + 1), fun _ => nextCopy_drawn _, fun hne => absurd hfull hne⟩
  · obtain ⟨hdraws, haccTaint⟩ := nextCopy_drawn (extendByte d s)
    exact ⟨_, insertCopy_notFull h hfull, insertResult_notFull hpixv hfull _, fun h => absurd h hfull,
      fun _ => ⟨hdraws, haccTaint.trans htaints⟩⟩

/-- 30 R70: the shift moves the field by a power of 2. -/
theorem putPixel_eq (d i : Nat) (acc p : Byte) :
    putPixel d i acc p = acc ||| BitVec.ofNat 8 (pixelField d p * 2 ^ slotShift d i) := by
  have hshift : BitVec.ofNat 8 (pixelField d p) <<< slotShift d i
      = BitVec.ofNat 8 (pixelField d p * 2 ^ slotShift d i) :=
    BitVec.eq_of_toNat_eq (by simp [Nat.shiftLeft_eq])
  rw [putPixel, hshift]

/-- Settles O32: R135 at depth 1. -/
theorem insertOneBitPixel : Obligations.InsertOneBitPixel := by
  intro s e hready hdet
  obtain ⟨t, hrun, hdrawn, hresult⟩ := insertCopy_determined hready hdet
  have hshift : slotShift 1 s.slot.toNat = 7 - s.slot.toNat := by unfold slotShift; omega
  exact ⟨t, _, hrun, hdrawn, by rw [putPixel_eq, hshift]; rfl, hresult⟩

/-- Settles O33: R135 at depth 2. -/
theorem insertTwoBitPixel : Obligations.InsertTwoBitPixel := by
  intro s e hready hdet
  obtain ⟨t, hrun, hdrawn, hresult⟩ := insertCopy_determined hready hdet
  have hshift : slotShift 2 s.slot.toNat = 6 - 2 * s.slot.toNat := by unfold slotShift; omega
  exact ⟨t, _, hrun, hdrawn, by rw [putPixel_eq, hshift]; rfl, hresult⟩

/-- Settles O34: R135 at depth 4. -/
theorem insertFourBitPixel : Obligations.InsertFourBitPixel := by
  intro s e hready hdet
  obtain ⟨t, hrun, hdrawn, hresult⟩ := insertCopy_determined hready hdet
  have hshift : slotShift 4 s.slot.toNat = 4 - 4 * s.slot.toNat := by unfold slotShift; omega
  exact ⟨t, _, hrun, hdrawn, by rw [putPixel_eq, hshift]; rfl, hresult⟩

/-- With no pixel in the byte begun, `ACC` is 0. -/
theorem Packs.acc_eq_zero {px : List Byte} {s : State} (h : Packs px s) (hslot : s.slot.toNat = 0) : s.acc = 0#8 := by
  rw [h.acc]
  exact lineByte_past (by rw [h.length_eq, hslot]; omega)

/-- 43 R139: at depth 8 the field is the pixel and fills the byte. -/
theorem putPixel_eight (p : Byte) : putPixel 8 0 0#8 p = p := by
  rw [putPixel_eq, BitVec.zero_or]
  exact BitVec.eq_of_toNat_eq (by simp [pixelField, slotShift, Nat.mod_eq_of_lt p.isLt])

/-- Settles O35: R135 at depth 8, where a byte has the one slot 0; between two pixels no byte is begun. -/
theorem insertEightBitPixel : Obligations.InsertEightBitPixel := by
  refine ⟨fun s e hready hdet hacc => ?_, fun s hinv hphase hdepth => ?_⟩
  · obtain ⟨t, hrun, hdrawn, hresult⟩ := insertCopy_determined hready hdet
    obtain ⟨_, _, _, _, hslot, _⟩ := hready
    have hzero : s.slot.toNat = 0 := Nat.lt_one_iff.1 hslot
    rw [hzero, hacc, putPixel_eight, eq_true (show 0 + 1 = ppb 8 from rfl)] at hresult
    exact ⟨t, hrun, hdrawn, hresult⟩
  · obtain ⟨hpack, _⟩ := Inv.packing hinv hphase
    have hzero : s.slot.toNat = 0 := by
      rw [hpack.packs.slot, hdepth]; exact Nat.mod_one _
    exact ⟨hpack.packs.acc_eq_zero hzero, BitVec.eq_of_toNat_eq hzero⟩

/-! ### The bits of `ACC` (43 R135) -/

/-- 10 R28 (b): `SLOT` is a slot of the byte. -/
theorem Packs.slot_lt {px : List Byte} {s : State} (h : Packs px s) (hd : IsDepth s.depth.toNat) :
    s.slot.toNat < ppb s.depth.toNat := by
  rw [h.slot]; exact Nat.mod_lt _ hd.ppb_pos

/-- 30 R70: the slots from `i` on are free, so the pixels before leave only the high `d * i` bits of `ACC` occupied. -/
theorem Packs.acc_eq_mul {px : List Byte} {s : State} (h : Packs px s) (hd : IsDepth s.depth.toNat) :
    ∃ q, s.acc.toNat = 2 ^ (8 - s.depth.toNat * s.slot.toNat) * q := by
  have hslot := (h.slot_lt hd).le
  obtain ⟨q, -, hq⟩ := slotSum_eq_mul s.depth.toNat px s.bidx.toNat s.slot.toNat
    (hd.mul_ppb ▸ Nat.mul_le_mul_left _ hslot)
  exact ⟨q, by rw [h.acc, hd.toNat_lineByte, slotSum_past h.length_eq.le hslot, hq]⟩

/-- 30 R70: a field in slot `i` lies below the slots before it. -/
theorem field_lt_room {d i : Nat} (hi : d * (i + 1) ≤ 8) (p : Byte) :
    pixelField d p * 2 ^ slotShift d i < 2 ^ (8 - d * i) := by
  have hgap : 8 - d * i = d + slotShift d i := by unfold slotShift; rw [Nat.mul_succ] at *; omega
  rw [hgap, Nat.pow_add]
  exact Nat.mul_lt_mul_of_pos_right (Nat.mod_lt _ (Nat.two_pow_pos d)) (Nat.two_pow_pos _)

/-- A multiple of `2 ^ k` and a number below it have no bit in common. -/
theorem two_pow_mul_and_of_lt {k f : Nat} (hf : f < 2 ^ k) (q : Nat) : 2 ^ k * q &&& f = 0 := by
  apply Nat.eq_of_testBit_eq
  intro i
  by_cases hi : i < k
  · simp [Nat.testBit_two_pow_mul, Nat.not_le.2 hi]
  · simp [Nat.testBit_lt_two_pow (hf.trans_le (Nat.pow_le_pow_right Nat.two_pos (Nat.not_lt.1 hi)))]

/-- Settles O36: the pixels in `ACC` occupy the bits above the free slots, and the copy lies below them. -/
theorem insertNeverOverlaps : Obligations.InsertNeverOverlaps := by
  intro s hinv hphase hpixv
  obtain ⟨hpack, hplan⟩ := Inv.packing hinv hphase
  have hd := hplan.isDepth
  have hslot := hpack.packs.slot_lt hd
  obtain ⟨q, hacc⟩ := hpack.packs.acc_eq_mul hd
  have hfield := field_lt_room (hd.mul_ppb ▸ Nat.mul_le_mul_left _ hslot) s.pixreg
  have hbyte := hfield.trans_le (Nat.pow_le_pow_right Nat.two_pos (Nat.sub_le 8 _))
  refine ⟨BitVec.eq_of_toNat_eq ?_, hbyte, ?_⟩
  · rw [BitVec.toNat_and, BitVec.toNat_ofNat, Nat.mod_eq_of_lt hbyte, hacc]
    exact two_pow_mul_and_of_lt hfield q
  · rw [putPixel_eq, BitVec.toNat_or, BitVec.toNat_ofNat, Nat.mod_eq_of_lt hbyte, hacc]
    exact (Nat.two_pow_add_eq_or_of_lt hfield q).symm

/-! ### EOL (43 R140) -/

theorem execEol_noByte {s : State} (hphase : s.phase = .pack) (hpixv : s.pixv = false) (hcol : s.col = s.srcW)
    (hvalid : s.planValid = true) (hslot : s.slot = 0#3) (d : BitVec 4) :
    execEol d s = .next (turnToReplay s) := by
  rw [execEol, if_pos ⟨hphase, hpixv, hcol⟩, if_neg (by simp [hvalid]), if_pos hslot]

theorem execEol_flush {s : State} (hphase : s.phase = .pack) (hpixv : s.pixv = false) (hcol : s.col = s.srcW)
    (hvalid : s.planValid = true) (hslot : s.slot ≠ 0#3) (hbidx : s.bidx.toNat < s.lbBytes) (d : BitVec 4) :
    execEol d s = .next (turnToReplay (storeByte s.accTaint s.acc s)) := by
  rw [execEol, if_pos ⟨hphase, hpixv, hcol⟩, if_neg (by simp [hvalid]), if_neg hslot, if_pos hbidx]

/-- Settles O37: R135 and R140 with the free byte in place of the assembled one. -/
theorem anyValueModeFreesTheByte : Obligations.AnyValueModeFreesTheByte := by
  refine ⟨fun s d i hi hready hmode htaint => ?_, fun s d hphase hpixv hcol hvalid hslot hbidx htaint => ?_⟩
  · have htaints : (s.accTaint || taints s) = true := by
      rcases htaint with h | h
      · rw [h]; rfl
      · simp [taints, hmode, h]
    have hrun := insertCopy_tainted hready htaints
    rcases hi with ⟨rfl, e, rfl⟩ | ⟨rfl, e, rfl⟩ | ⟨rfl, e, rfl⟩ | ⟨rfl, e, rfl⟩ <;> exact hrun
  · refine ⟨_, execEol_flush hphase hpixv hcol hvalid hslot hbidx d, ?_⟩
    rw [htaint]
    refine ⟨memGet_memPut_same .., fun a ha => memGet_memPut_ne _ _ _ _ ha, ?_⟩
    and_intros <;> rfl

/-- Settles O38: with a byte begun and without. -/
theorem eolTurnsToReplay : Obligations.EolTurnsToReplay := by
  intro s d hphase hpixv hcol hvalid htaint hbidx
  by_cases hslot : s.slot = 0#3
  · refine ⟨_, execEol_noByte hphase hpixv hcol hvalid hslot d, fun h => absurd hslot h, fun _ _ => rfl, ?_⟩
    and_intros <;> rfl
  · refine ⟨_, execEol_flush hphase hpixv hcol hvalid hslot (hbidx hslot) d, fun _ => ?_, fun h => absurd h hslot, ?_⟩
    · rw [htaint]
      exact ⟨memGet_memPut_same .., fun a ha => memGet_memPut_ne _ _ _ _ ha⟩
    · rw [htaint]
      and_intros <;> rfl

/-- 10 R28 (c): in REPLAY the line buffer holds the scanline. -/
theorem ReplayInv.line {s : State} (h : ReplayInv s) (hdet : Determined s) :
    ∀ j < s.bps.toNat, memGet s.lb j = (currentLine s)[j]? := by
  obtain ⟨_, _, _, _, _, _, _, _, _, _, _, _, _, hcontents⟩ := h
  exact (hcontents hdet).1

/-- Settles O39: EOL leads to a state with the invariant of REPLAY, and the scanline's pixels fill `BPS` bytes or begin
the last of them. -/
theorem eolLeavesThePackedScanline : Obligations.EolLeavesThePackedScanline := by
  intro s t d hinv hdet hphase hpixv hcol hrun
  obtain ⟨hpack, hplan⟩ := Inv.packing hinv hphase
  refine ⟨?_, fun hslot => (hpack.bps_eq_bidx_succ hplan hpixv hcol hslot).symm,
    fun hslot => BitVec.eq_of_toNat_eq (hpack.bps_eq_bidx hplan hpixv hcol hslot).symm⟩
  by_cases hslot : s.slot = 0#3
  · cases (execEol_noByte hphase hpixv hcol hpack.plan hslot d).symm.trans hrun
    have hreplay := hpack.turnToReplay hplan hpixv hcol (lb := s.lb) (n := s.draws)
      (hpack.holdsLine hplan hpixv hcol hslot)
    exact hreplay.line hdet
  · have hbps := hpack.bps_eq_bidx_succ hplan hpixv hcol hslot
    have hline := hpack.holdsLine_storeByte hplan hpixv hcol hslot
    have hfit := hplan.bps_le_lbBytes
    cases (execEol_flush hphase hpixv hcol hpack.plan hslot (by omega) d).symm.trans hrun
    obtain ⟨b, n, e, _⟩ := storeByte_eq s.accTaint s.acc s
    rw [e] at hline ⊢
    exact (hpack.turnToReplay hplan hpixv hcol hline).line hdet

/-! ### EMIT (43 R141) -/

theorem execEmit_enabled {s : State} (hphase : s.phase = .replay) (hready : s.sinkReady = true)
    (hvalid : s.planValid = true) (hline : s.bidx.toNat < s.bps.toNat) (hbidx : s.bidx.toNat < s.lbBytes)
    (p e : Bool) (d : BitVec 4) :
    execEmit p e d s = .next (afterEmit (pushByte (lbRead s.lb s.bidx.toNat) s)) := by
  rw [execEmit, if_pos ⟨hphase, hready⟩, if_neg (by simp [hvalid]), if_neg (by omega), if_pos hbidx]

theorem execEmit_sinkNotReady {s : State} (hready : s.sinkReady = false) (p e : Bool) (d : BitVec 4) :
    execEmit p e d s = .next s := by
  rw [execEmit, if_neg (by simp [hready])]

/-- 43 R141: the counters of EMIT, branch by branch. -/
theorem afterEmit_counters {s : State} (hphase : s.phase = .replay) :
    if s.bidx.toNat + 1 < s.bps.toNat then
      (afterEmit s).bidx = s.bidx + 1 ∧ (afterEmit s).vrep = s.vrep ∧ (afterEmit s).row = s.row
        ∧ (afterEmit s).phase = .replay ∧ (afterEmit s).done = s.done
    else if s.vrep.toNat + 1 < s.scale.toNat then
      (afterEmit s).bidx = 0#32 ∧ (afterEmit s).vrep = s.vrep + 1 ∧ (afterEmit s).row = s.row
        ∧ (afterEmit s).phase = .replay ∧ (afterEmit s).done = s.done
    else if s.row.toNat + 1 < s.srcH.toNat then
      (afterEmit s).bidx = 0#32 ∧ (afterEmit s).vrep = 0#16 ∧ (afterEmit s).row = s.row + 1
        ∧ (afterEmit s).phase = .pack ∧ (afterEmit s).done = s.done
    else (afterEmit s).bidx = 0#32 ∧ (afterEmit s).vrep = 0#16 ∧ (afterEmit s).row = 0#16
        ∧ (afterEmit s).phase = .idle ∧ (afterEmit s).done = true := by
  unfold afterEmit
  split_ifs
  · exact ⟨rfl, rfl, rfl, hphase, rfl⟩
  · exact ⟨rfl, rfl, rfl, hphase, rfl⟩
  · exact ⟨rfl, rfl, rfl, rfl, rfl⟩
  · exact ⟨rfl, rfl, rfl, rfl, rfl⟩

/-- Settles O40: the counters by branch; on every branch the rest is what the push left. -/
theorem emitPushesTheByte : Obligations.EmitPushesTheByte := by
  intro s p e d hphase hvalid hline hbidx
  refine ⟨fun hready => ⟨_, execEmit_enabled hphase hready hvalid hline hbidx p e d, ?_⟩,
    fun hready => execEmit_sinkNotReady hready p e d⟩
  have hcounters := afterEmit_counters (s := pushByte (lbRead s.lb s.bidx.toNat) s) hphase
  obtain ⟨b, v, r, ph, dn, heq⟩ := afterEmit_eq (pushByte (lbRead s.lb s.bidx.toNat) s)
  rw [heq] at hcounters ⊢
  exact ⟨rfl, hcounters, rfl, rfl, rfl, rfl, rfl, rfl, rfl, fun _ => rfl, by and_intros <;> rfl⟩

/-! ### The frame of the micro-steps -/

/-- What only FETCH changes is the same. -/
abbrev SameInput (s t : State) : Prop := t.pixIn = s.pixIn ∧ t.pixreg = s.pixreg ∧ t.taken = s.taken

/-- What only EMIT changes is the same. -/
abbrev SameOutput (s t : State) : Prop :=
  t.out = s.out ∧ t.done = s.done ∧ t.row = s.row ∧ t.emitted = s.emitted

theorem execFetch_frame {d : BitVec 4} {s t : State} (h : execFetch d s = .next t) :
    SameOutput s t ∧ SameLineBuffer s t := by
  rcases execFetch_next h with rfl | ⟨_, _, _, _, p, rest, _, rfl⟩ <;> exact ⟨⟨rfl, rfl, rfl, rfl⟩, fun _ => rfl⟩

theorem insertCopy_frame {d : Nat} {s t : State} (h : insertCopy d s = .next t) : SameInput s t ∧ SameOutput s t := by
  rcases insertCopy_next h with rfl | ⟨_, _, _, _, _, ⟨_, _, rfl⟩ | ⟨_, rfl⟩⟩
  · and_intros <;> rfl
  · obtain ⟨b, n, v, r, c, e⟩ := nextCopy_finishByte_eq d s
    rw [e]; and_intros <;> rfl
  · obtain ⟨v, r, c, e⟩ := nextCopy_eq (extendByte d s)
    rw [e]; and_intros <;> rfl

theorem execEol_frame {d : BitVec 4} {s t : State} (h : execEol d s = .next t) : SameInput s t ∧ SameOutput s t := by
  rcases execEol_next h with rfl | ⟨_, _, _, _, ⟨_, rfl⟩ | ⟨_, _, rfl⟩⟩
  · and_intros <;> rfl
  · and_intros <;> rfl
  · obtain ⟨b, n, e, _⟩ := storeByte_eq s.accTaint s.acc s
    rw [e]; and_intros <;> rfl

theorem execEmit_frame {p e : Bool} {d : BitVec 4} {s t : State} (h : execEmit p e d s = .next t) :
    SameInput s t ∧ SameLineBuffer s t := by
  rcases execEmit_next h with rfl | ⟨_, _, _, _, _, rfl⟩
  · exact ⟨⟨rfl, rfl, rfl⟩, fun _ => rfl⟩
  · obtain ⟨b, v, r, ph, dn, heq⟩ := afterEmit_eq (pushByte (lbRead s.lb s.bidx.toNat) s)
    rw [heq]; exact ⟨⟨rfl, rfl, rfl⟩, fun _ => rfl⟩

/-- What every micro-step leaves alone. -/
theorem microStep_besides {i : Instr} {s t : State} (hi : isMicroStep i = true) (h : exec i s = .next t) :
    SameBesidesMicroStep s t ∧ SameLineBufferExcept s.bidx.toNat s t := by
  rcases microEffect_exec hi h with rfl | heffect
  · exact ⟨by and_intros <;> rfl, fun _ _ => rfl⟩
  · refine ⟨heffect.sameBesides, fun a ha => ?_⟩
    rcases heffect.lb_eq with e | ⟨b, _, e⟩ <;> rw [e]
    exact memGet_memPut_ne _ _ _ _ ha

/-- Settles O42: what every micro-step leaves alone, and for each kind the fields that are another kind's. -/
theorem microStepFrame : Obligations.MicroStepFrame := by
  intro i s t hi h
  obtain ⟨hbesides, hexcept⟩ := microStep_besides hi h
  refine ⟨hbesides, hexcept, ?_⟩
  cases i with
  | fetch d =>
    obtain ⟨hout, hlb⟩ := execFetch_frame (d := d) h
    exact ⟨fun hne => absurd rfl (hne d), fun _ => hout, fun _ _ => hlb, nofun⟩
  | insert1 | insert2 | insert4 | insert8 =>
    obtain ⟨hin, hout⟩ := insertCopy_frame h
    exact ⟨fun _ => hin, fun _ => hout, nofun, nofun⟩
  | eol d =>
    obtain ⟨hin, hout⟩ := execEol_frame (d := d) h
    exact ⟨fun _ => hin, fun _ => hout, nofun, nofun⟩
  | emit p e d =>
    obtain ⟨hin, hlb⟩ := execEmit_frame (p := p) (e := e) (d := d) h
    exact ⟨fun _ => hin, fun hne => absurd rfl (hne p e d), nofun, fun _ _ _ _ => hlb⟩
  | regrd | regwr | nop | plan | rast | render | abort | pixpush | bytepop => cases hi

end Sys2Proof.Machine
end

section
/-! PROOF. The phases and the record of the run, turn by turn: what changes `PHASE` (43 R131), in which order pixels are
taken and bytes emitted (43 R145), and what the EMIT that ends the frame has completed (43 R142). -/

namespace Sys2Proof.Machine

/-! ### The causes of a change of phase (43 R131) -/

/-- The operation `i` that takes `s` to `t` in another phase, and its conditions. -/
inductive PhaseChange (s t : State) (i : Instr) : Prop
  | start (hi : i = .rast ∨ i = .render) (hidle : s.phase = .idle) (hpack : t.phase = .pack)
      (hvalid : t.planValid = true) (hrows : 0 < t.outH.toNat)
  | eol (hi : ∃ d, i = .eol d) (hpack : s.phase = .pack) (hreplay : t.phase = .replay) (hpixv : s.pixv = false)
      (hcol : s.col = s.srcW)
  | emit (hi : ∃ p e d, i = .emit p e d) (hreplay : s.phase = .replay) (hbidx : s.bidx.toNat + 1 = s.bps.toNat)
      (hvrep : s.vrep.toNat + 1 = s.scale.toNat)
      (hnext : (t.phase = .pack ∧ s.row.toNat + 1 < s.srcH.toNat)
        ∨ (t.phase = .idle ∧ s.row.toNat + 1 = s.srcH.toNat ∧ t.done = true))
  | abort (hi : i = .abort) (hbusy : s.phase ≠ .idle) (hidle : t.phase = .idle)

/-- 30 R62: a turn's operation is the reading of a word, so it is well-formed. -/
theorem turnInstr_wellFormed {s : State} {i : Instr} (h : turnInstr s = some i) : i.WellFormed := by
  unfold turnInstr at h
  split at h
  · cases h
  · split at h
    · rename_i hdecode
      cases h
      exact (encodeOfDecodeIsTheWord _ _ hdecode).2
    · cases h

theorem badCommand_phase (s : State) : (badCommand s).phase = s.phase := by
  rcases badCommand_cases s with ⟨_, e⟩ | ⟨_, e⟩ <;> rw [e]
  · rfl
  · exact (sameSequencer_raiseError _ s).1

theorem configWrite_phase (idx : BitVec 4) (data : Word) (s : State) : (configWrite idx data s).phase = s.phase := by
  rcases configWrite_cases idx data s with ⟨_, e⟩ | ⟨_, e⟩ <;> rw [e]
  · rfl
  · obtain ⟨p, w, h, c, e⟩ := configStore_eq idx (configValue data) s
    rw [e]; rfl

/-- A REGWR that is no command starts and ends nothing. -/
theorem execRegwr_phase {idx : BitVec 4} {data : Word} (hwf : (Instr.regwr idx data).WellFormed) {s t : State}
    (h : execRegwr idx data s = .next t) : t.phase = s.phase := by
  by_cases hidx : idx = 0#4
  · subst hidx
    cases (exec_regwr_reserved ((wellFormed_regwr_iff _ _).1 hwf rfl) s).symm.trans h
    exact badCommand_phase s
  · rw [execRegwr, if_neg hidx] at h
    split at h <;> cases h
    · exact configWrite_phase idx data s
    · rfl

theorem acceptIdle_doPlan_phase (s : State) : (acceptIdle doPlan s).phase = s.phase := by
  by_cases hidle : s.phase = .idle
  · rw [acceptIdle_idle doPlan hidle]; exact (keptByPlan_doPlan (clearFlags s)).sequencer.1
  · rw [acceptIdle_busy doPlan hidle]; rfl

/-- A command that changes the phase was accepted. -/
theorem idle_of_acceptIdle_phase_ne {effect : State → State} {s : State}
    (hne : (acceptIdle effect s).phase ≠ s.phase) : s.phase = .idle := by
  by_contra hbusy
  exact hne (by rw [acceptIdle_busy effect hbusy]; rfl)

/-- 43 R128: where the phase changes, a frame with rows has started. -/
theorem startFrame_phase_ne {s : State} (hne : (startFrame s).phase ≠ s.phase) :
    (startFrame s).phase = .pack ∧ (startFrame s).planValid = s.planValid ∧ 0 < (startFrame s).outH.toNat := by
  by_cases hempty : s.outH = 0#32
  · obtain ⟨_, hphase, _⟩ := startFrame_done_of_empty hempty
    exact absurd hphase hne
  · obtain ⟨_, _, _, houtH, _, hvalid⟩ := sameSetup_startFrame s
    obtain ⟨_, hpack, _⟩ := startFrame_started hempty
    refine ⟨hpack, hvalid, ?_⟩
    rw [houtH]
    exact Nat.pos_of_ne_zero fun hz => hempty (BitVec.eq_of_toNat_eq hz)

theorem phaseChange_rast {s : State} (hne : (acceptIdle doRast s).phase ≠ s.phase) :
    PhaseChange s (acceptIdle doRast s) .rast := by
  have hidle := idle_of_acceptIdle_phase_ne hne
  rw [acceptIdle_idle doRast hidle] at hne ⊢
  rcases doRast_cases (clearFlags s) with ⟨_, e⟩ | ⟨hplan, e⟩ <;> rw [e] at hne ⊢
  · exact absurd (sameSequencer_raiseError _ (clearFlags s)).1 hne
  · obtain ⟨hpack, hvalid, hrows⟩ := startFrame_phase_ne (s := clearFlags s) hne
    exact .start (.inl rfl) hidle hpack (hvalid.trans hplan) hrows

theorem phaseChange_render {s : State} (hne : (acceptIdle doRender s).phase ≠ s.phase) :
    PhaseChange s (acceptIdle doRender s) .render := by
  have hidle := idle_of_acceptIdle_phase_ne hne
  rw [acceptIdle_idle doRender hidle] at hne ⊢
  have hkept : (doPlan (clearFlags s)).phase = s.phase := (keptByPlan_doPlan (clearFlags s)).sequencer.1
  rcases doRender_cases (clearFlags s) with ⟨_, _, e⟩ | ⟨d, ow, oh, n, hplan, e⟩ <;> rw [e] at hne ⊢
  · exact absurd hkept hne
  · obtain ⟨hpack, hvalid, hrows⟩ := startFrame_phase_ne (s := doPlan (clearFlags s)) (by rwa [hkept])
    exact .start (.inr rfl) hidle hpack (hvalid.trans (by rw [doPlan_of_plan hplan]; rfl)) hrows

theorem insertCopy_phase {d : Nat} {s t : State} (h : insertCopy d s = .next t) : t.phase = s.phase := by
  rcases insertCopy_next h with rfl | ⟨_, _, _, _, _, ⟨_, _, rfl⟩ | ⟨_, rfl⟩⟩
  · rfl
  · obtain ⟨b, n, v, r, c, e⟩ := nextCopy_finishByte_eq d s
    rw [e]
  · obtain ⟨v, r, c, e⟩ := nextCopy_eq (extendByte d s)
    rw [e]; rfl

/-- 43 R140: EOL changes the phase where it is selected. -/
theorem phaseChange_eol {d : BitVec 4} {s t : State} (h : execEol d s = .next t) (hne : t.phase ≠ s.phase) :
    PhaseChange s t (.eol d) := by
  rcases execEol_next h with rfl | ⟨hphase, hpixv, hcol, _, ⟨_, rfl⟩ | ⟨_, _, rfl⟩⟩
  · exact absurd rfl hne
  · exact .eol ⟨d, rfl⟩ hphase rfl hpixv hcol
  · exact .eol ⟨d, rfl⟩ hphase rfl hpixv hcol

/-- 43 R141: EMIT leaves REPLAY with the last byte of the last copy. -/
theorem phaseChange_emit {p e : Bool} {d : BitVec 4} {s t : State} (hinv : Inv s) (h : execEmit p e d s = .next t)
    (hne : t.phase ≠ s.phase) : PhaseChange s t (.emit p e d) := by
  rcases execEmit_next h with rfl | ⟨hphase, _, _, hline, _, rfl⟩
  · exact absurd rfl hne
  obtain ⟨⟨_, hrow, hvrep, _⟩, _⟩ := Inv.replay hinv hphase
  rcases afterEmit_pushByte_cases (lbRead s.lb s.bidx.toNat) s with
    ⟨_, _, _, heq⟩ | ⟨_, _, _, _, heq⟩ | ⟨hlast, hcopies, hmore, _, _, heq⟩ | ⟨hlast, hcopies, hend, heq⟩ <;>
    rw [heq] at hne ⊢
  · exact absurd rfl hne
  · exact absurd rfl hne
  · exact .emit ⟨p, e, d, rfl⟩ hphase (by omega) (by omega) (.inl ⟨rfl, hmore⟩)
  · exact .emit ⟨p, e, d, rfl⟩ hphase (by omega) (by omega) (.inr ⟨rfl, by omega, rfl⟩)

theorem phaseChange_exec {i : Instr} {s t : State} (hwf : i.WellFormed) (hinv : Inv s) (h : exec i s = .next t)
    (hne : t.phase ≠ s.phase) : PhaseChange s t i := by
  cases i with
  | regrd | nop | pixpush => cases h; exact absurd rfl hne
  | regwr idx data => exact absurd (execRegwr_phase hwf h) hne
  | plan => cases h; exact absurd (acceptIdle_doPlan_phase s) hne
  | rast => cases h; exact phaseChange_rast hne
  | render => cases h; exact phaseChange_render hne
  | abort => cases h; exact .abort rfl hne.symm rfl
  | bytepop bus =>
    rcases execBytepop_next (bus := bus) h with rfl | ⟨_, _, _, rfl⟩ <;> exact absurd rfl hne
  | fetch d =>
    rcases execFetch_next (d := d) h with rfl | ⟨_, _, _, _, _, _, _, rfl⟩ <;> exact absurd rfl hne
  | insert1 | insert2 | insert4 | insert8 => exact absurd (insertCopy_phase h) hne
  | eol d => exact phaseChange_eol h hne
  | emit p e d => exact phaseChange_emit hinv h hne

/-- Settles O50: a change of phase by an operation is one of `PhaseChange`; of the turns that run none only the reset
changes it. -/
theorem phaseTransitions : Obligations.PhaseTransitions := by
  intro s t hinv hstep hne
  obtain ⟨ready, rest, e⟩ := afterFetch_same s
  have hturn := step_next hstep
  rw [e] at hturn
  rcases hturn with ⟨i, hi, hexec⟩ | ⟨_, _, _, _, rfl⟩ | ⟨hreset, _, rfl⟩ | ⟨_, _, rfl⟩
  · rw [hi]
    simp only [Option.some.injEq]
    rcases phaseChange_exec (turnInstr_wellFormed hi) (inv_fetch s ready rest hinv) hexec hne with
      ⟨hi, hidle, hpack, hvalid, hrows⟩ | ⟨hi, hpack, hreplay, hpixv, hcol⟩ | ⟨hi, hreplay, hbidx, hvrep, hnext⟩
      | ⟨hi, hbusy, hidle⟩
    · exact .inl ⟨hidle, hpack, hi, hvalid, hrows⟩
    · exact .inr (.inl ⟨hpack, hreplay, hi, hpixv, hcol⟩)
    · exact .inr (.inr (.inl ⟨hreplay, hi, hbidx, hvrep, hnext⟩))
    · exact .inr (.inr (.inr ⟨hbusy, hidle, .inl hi⟩))
  · exact absurd rfl hne
  · exact .inr (.inr (.inr ⟨hne.symm, rfl, .inr hreset⟩))
  · exact absurd rfl hne

/-! ### Taking and emitting (43 R145) -/

theorem sameRun_raiseError (code : ErrCode) (s : State) : SameRun s (raiseError code s) := by
  cases h : code.isPlanner
  · rw [raiseError_other h]; exact ⟨rfl, rfl⟩
  · rw [raiseError_planner h]; exact ⟨rfl, rfl⟩

/-- 43 R146: the record of the run starts afresh. -/
theorem startFrame_run (s : State) : (startFrame s).taken = [] ∧ (startFrame s).emitted = [] := by
  by_cases h : s.outH = 0#32
  · rw [startFrame_empty h]; exact ⟨rfl, rfl⟩
  · rw [startFrame_frame h]; exact ⟨rfl, rfl⟩

/-- What a turn makes of the record of the run. -/
inductive RunEffect (s t : State) : Prop
  | same (h : SameRun s t)
  | started (htaken : t.taken = []) (hemitted : t.emitted = [])
  /-- FETCH. -/
  | took (hphase : s.phase = .pack) (hpixv : s.pixv = false) (hcol : s.col.toNat < s.srcW.toNat)
      (hemitted : t.emitted = s.emitted)
  /-- EMIT. -/
  | pushed (hphase : s.phase = .replay) (htaken : t.taken = s.taken)

theorem MicroEffect.run {s t : State} (h : MicroEffect s t) : RunEffect s t := by
  cases h with
  | fetched hphase hpixv hcol => exact .took hphase hpixv hcol rfl
  | filled =>
    obtain ⟨b, n, v, r, c, e⟩ := nextCopy_finishByte_eq s.depth.toNat s
    exact .same (by rw [e]; exact ⟨rfl, rfl⟩)
  | extended =>
    obtain ⟨v, r, c, e⟩ := nextCopy_eq (extendByte s.depth.toNat s)
    exact .same (by rw [e]; exact ⟨rfl, rfl⟩)
  | turned => exact .same ⟨rfl, rfl⟩
  | flushed =>
    obtain ⟨b, n, e, _⟩ := storeByte_eq s.accTaint s.acc s
    exact .same (by rw [e]; exact ⟨rfl, rfl⟩)
  | emitted hphase =>
    obtain ⟨b, v, r, p, d, e⟩ := afterEmit_eq (pushByte (lbRead s.lb s.bidx.toNat) s)
    exact .pushed hphase (by rw [e]; rfl)

theorem TurnEffect.run {s t : State} (h : TurnEffect s t) : RunEffect s t := by
  cases h with
  | traffic | dropped | planned | abort | reset => exact .same ⟨rfl, rfl⟩
  | badCmd => exact .same (sameRun_raiseError _ s)
  | configured _ idx v =>
    obtain ⟨p, w, h, c, e⟩ := configStore_eq idx v s
    exact .same (by rw [e]; exact ⟨rfl, rfl⟩)
  | failed | noPlan => exact .same (sameRun_raiseError _ (clearFlags s))
  | started =>
    obtain ⟨htaken, hemitted⟩ := startFrame_run (clearFlags s)
    exact .started htaken hemitted
  | rendered =>
    obtain ⟨htaken, hemitted⟩ := startFrame_run (commitPlan _ _ _ _ (clearFlags s))
    exact .started htaken hemitted
  | micro h => exact h.run

/-- In PACK the bytes of the scanlines before `ROW` are out, and `ROW` is the scanline of the next pixel. -/
theorem Packing.emittedLength_eq {s : State} (h : Packing s) (hpixv : s.pixv = false)
    (hcol : s.col.toNat < s.srcW.toNat) :
    s.emitted.length = s.taken.length / s.srcW.toNat * (s.scale.toNat * s.bps.toNat) := by
  have hlength : s.taken.length = s.row.toNat * s.srcW.toNat + s.col.toNat := by simpa [hpixv] using h.taking.length
  rw [h.emittedLength, hlength, scanline_div hcol, Nat.mul_assoc]

/-- In REPLAY the pixels up to the end of scanline `ROW` are in, and `ROW` is the scanline of the next byte. -/
theorem ReplayInv.takenLength_eq {s : State} (h : ReplayInv s) :
    s.taken.length = (s.emitted.length / (s.scale.toNat * s.bps.toNat) + 1) * s.srcW.toNat := by
  obtain ⟨_, _, hvrep, hbidx, _, _, _, _, _, _, _, htaken, hemitted, _⟩ := h
  have hlt : s.vrep.toNat * s.bps.toNat + s.bidx.toNat < s.scale.toNat * s.bps.toNat := by
    rw [Nat.mul_comm s.vrep.toNat]
    exact Nat.mul_add_lt_mul_of_lt_of_lt hvrep hbidx
  rw [htaken, hemitted, Nat.mul_assoc, Nat.add_assoc, scanline_div hlt]

/-- Settles O52: a pixel is taken in PACK and a byte emitted in REPLAY, where the invariant has both counts. -/
theorem takingAndEmittingAlternate : Obligations.TakingAndEmittingAlternate := by
  intro s t hinv hstep
  obtain ⟨ready, rest, e⟩ := afterFetch_same s
  have heffect := turnEffect_step hstep
  rw [e] at heffect
  rcases heffect.run with ⟨hsameTaken, hsameEmitted⟩ | ⟨hnoneTaken, hnoneEmitted⟩
    | ⟨hphase, hpixv, hcol, hsameEmitted⟩ | ⟨hphase, hsameTaken⟩
  · exact ⟨fun p h => by simp [hsameTaken] at h, fun b h => by simp [hsameEmitted] at h⟩
  · exact ⟨fun p h => by simp [hnoneTaken] at h, fun b h => by simp [hnoneEmitted] at h⟩
  · exact ⟨fun _ _ => (Inv.packing hinv hphase).1.emittedLength_eq hpixv hcol, fun b h => by simp [hsameEmitted] at h⟩
  · exact ⟨fun p h => by simp [hsameTaken] at h, fun _ _ => (Inv.replay hinv hphase).1.takenLength_eq⟩

/-! ### The last EMIT of a frame (43 R142) -/

/-- From REPLAY to IDLE with `DONE`: no ABORT and no reset, which clear `DONE`, but an EMIT. -/
theorem TurnEffect.lastEmit {s t : State} (h : TurnEffect s t) (hphase : s.phase = .replay) (hidle : t.phase = .idle)
    (hdone : t.done = true) : t = afterEmit (pushByte (lbRead s.lb s.bidx.toNat) s) ∧ s.planValid = true := by
  have hbusy : s.phase ≠ .idle := by rw [hphase]; nofun
  cases h with
  | traffic | dropped => exact absurd hidle hbusy
  | badCmd h | configured h | failed h | planned h | noPlan h | started h | rendered h => exact absurd h hbusy
  | abort | reset => cases hdone
  | micro h =>
    cases h with
    | fetched hpack | filled hpack | extended hpack | turned hpack | flushed hpack => cases hphase.symm.trans hpack
    | emitted _ _ hvalid => exact ⟨rfl, hvalid⟩

/-- Settles O53: the next state meets the invariant, which says of an idle state with `DONE` what the run has done. -/
theorem lastEmitCompletesTheFrame : Obligations.LastEmitCompletesTheFrame := by
  intro s t hinv hstep hphase hidle hdone
  obtain ⟨_, _, _, _, hidleInv, _⟩ := invariantIsKept s t hinv hstep
  obtain ⟨_, _, _, _, _, _, _, _, _, hrun⟩ := hidleInv hidle
  obtain ⟨ready, rest, e⟩ := afterFetch_same s
  have heffect := turnEffect_step hstep
  rw [e] at heffect
  obtain ⟨rfl, hvalid⟩ := heffect.lastEmit hphase hidle hdone
  obtain ⟨b, v, r, p, d, e⟩ :=
    afterEmit_eq (pushByte (lbRead s.lb s.bidx.toNat) { s with sinkReady := ready, agenda := rest })
  rw [e] at hdone hrun ⊢
  obtain ⟨htaken, hemitted, hframe⟩ := hrun hdone hvalid
  exact ⟨htaken, hemitted, ⟨_, rfl, rfl⟩, hframe⟩

end Sys2Proof.Machine
end

section
/-! PROOF. A frame run that nothing interrupts (43 R142, R143): `stepsDone` counts the micro-steps of a frame from its
state, every micro-step that is taken counts one (`MicroEffect.stepsDone`), and a busy block whose sink is ready and
whose pixels are there takes one in every turn (`microEffect_of_ready`). What the run keeps is `FrameRun`. -/

namespace Sys2Proof.Machine

/-! ### The micro-steps of a frame, counted from the state (43 R143) -/

/-- The micro-steps of one source scanline: `SRC_W` FETCHes, `SRC_W * SCALE` INSERTs, one EOL, `BPS * SCALE` EMITs. -/
def lineSteps (s : State) : Nat :=
  s.srcW.toNat + s.srcW.toNat * s.scale.toNat + 1 + s.bps.toNat * s.scale.toNat

/-- How many of them a busy block has taken for scanline `ROW`. -/
def stepsInLine (s : State) : Nat :=
  match s.phase with
  | .idle => 0
  | .pack => s.col.toNat * (1 + s.scale.toNat) + if s.pixv then 1 + s.hrep.toNat else 0
  | .replay => s.srcW.toNat * (1 + s.scale.toNat) + 1 + (s.vrep.toNat * s.bps.toNat + s.bidx.toNat)

/-- The micro-steps taken of the frame; an idle block has taken them all. -/
def stepsDone (s : State) : Nat :=
  if s.phase = .idle then s.srcH.toNat * lineSteps s else s.row.toNat * lineSteps s + stepsInLine s

theorem frameSteps_eq {s : State} (hplan : PlanHolds s) :
    frameSteps s.srcW.toNat s.srcH.toNat s.scale.toNat s.depth.toNat = s.srcH.toNat * lineSteps s := by
  rw [frameSteps, lineSteps, hplan.bps_eq]

theorem stepsDone_idle {s : State} (hphase : s.phase = .idle) : stepsDone s = s.srcH.toNat * lineSteps s :=
  if_pos hphase

theorem stepsDone_pack {s : State} (hphase : s.phase = .pack) :
    stepsDone s = s.row.toNat * lineSteps s
      + (s.col.toNat * (1 + s.scale.toNat) + if s.pixv then 1 + s.hrep.toNat else 0) := by
  simp [stepsDone, stepsInLine, hphase]

theorem stepsDone_replay {s : State} (hphase : s.phase = .replay) :
    stepsDone s = s.row.toNat * lineSteps s
      + (s.srcW.toNat * (1 + s.scale.toNat) + 1 + (s.vrep.toNat * s.bps.toNat + s.bidx.toNat)) := by
  simp [stepsDone, stepsInLine, hphase]

theorem Packing.stepsInLine_lt {s : State} (h : Packing s) (hphase : s.phase = .pack) :
    stepsInLine s < lineSteps s := by
  have hline : s.srcW.toNat * (1 + s.scale.toNat) < lineSteps s := by
    rw [lineSteps, Nat.mul_add, Nat.mul_one]; omega
  simp only [stepsInLine, hphase]
  cases hpixv : s.pixv with
  | true =>
    obtain ⟨hcol, hhrep, _⟩ := h.taking.held hpixv
    have hpixel := Nat.mul_le_mul_right (1 + s.scale.toNat) (Nat.succ_le_of_lt hcol)
    rw [Nat.succ_mul] at hpixel
    simp only [if_true]
    omega
  | false =>
    have hpixels := Nat.mul_le_mul_right (1 + s.scale.toNat) h.taking.col_le
    simp only [Bool.false_eq_true, if_false]
    omega

theorem ReplayInv.stepsInLine_lt {s : State} (h : ReplayInv s) (hphase : s.phase = .replay) :
    stepsInLine s < lineSteps s := by
  obtain ⟨_, _, hvrep, hbidx, _⟩ := h
  have hbytes := Nat.mul_add_lt_mul_of_lt_of_lt hvrep hbidx
  rw [Nat.mul_comm, Nat.mul_comm s.scale.toNat] at hbytes
  simp only [stepsInLine, hphase, lineSteps, Nat.mul_add, Nat.mul_one]
  omega

/-- A busy block has micro-steps of the frame to take. -/
theorem stepsDone_lt_of_busy {s : State} (hinv : Inv s) (hbusy : s.phase ≠ .idle) :
    stepsDone s < s.srcH.toNat * lineSteps s := by
  have hrow_line : s.row.toNat < s.srcH.toNat ∧ stepsInLine s < lineSteps s := by
    cases hphase : s.phase with
    | idle => exact absurd hphase hbusy
    | pack =>
      obtain ⟨hpack, _⟩ := Inv.packing hinv hphase
      exact ⟨hpack.row_lt, hpack.stepsInLine_lt hphase⟩
    | replay =>
      obtain ⟨hreplay, _⟩ := Inv.replay hinv hphase
      have ⟨_, hrow, _⟩ := hreplay
      exact ⟨hrow, hreplay.stepsInLine_lt hphase⟩
  obtain ⟨hrow, hline⟩ := hrow_line
  rw [stepsDone, if_neg hbusy, Nat.mul_comm s.row.toNat]
  exact Nat.mul_add_lt_mul_of_lt_of_lt hrow hline

/-! ### Every micro-step counts one -/

/-- 43 R135, second `if`: one copy more of the pixel held. -/
theorem stepsDone_nextCopy {s : State} (hphase : s.phase = .pack) (h : Taking s) (hpixv : s.pixv = true) :
    stepsDone (nextCopy s) = stepsDone s + 1 := by
  obtain ⟨hcol, hhrep, _⟩ := h.held hpixv
  rcases nextCopy_cases s with ⟨hlast, e⟩ | ⟨hmore, e⟩
  all_goals
    rw [e, stepsDone_pack hphase]
    refine Eq.trans (stepsDone_pack hphase) ?_
  · have hnext : (s.col + 1).toNat = s.col.toNat + 1 := by bv_omega
    simp only [hnext, hpixv, if_true, Bool.false_eq_true, if_false, Nat.succ_mul, lineSteps]
    omega
  · have hnext : (s.hrep + 1).toNat = s.hrep.toNat + 1 := by bv_omega
    simp only [hnext, hpixv, if_true, lineSteps]
    omega

/-- An INSERT, whatever its first `if` makes of the byte: `u` is `s` with another byte begun or grown. -/
theorem stepsDone_insert {s u : State} (hphase : s.phase = .pack) (h : Taking s) (hpixv : s.pixv = true)
    (hu : ∃ b n i a sl ta, u = { s with lb := b, draws := n, bidx := i, acc := a, slot := sl, accTaint := ta }) :
    stepsDone (nextCopy u) = stepsDone s + 1 := by
  obtain ⟨b, n, i, a, sl, ta, rfl⟩ := hu
  refine Eq.trans (stepsDone_nextCopy hphase ⟨h.col_le, h.held, h.free, h.length⟩ hpixv) ?_
  rw [stepsDone_pack hphase]
  exact congrArg (· + 1) (stepsDone_pack hphase)

/-- The last byte of a scanline's last copy is its last micro-step. -/
theorem ReplayInv.stepsDone_lineEnd {s : State} (h : ReplayInv s) (hphase : s.phase = .replay)
    (hlast : s.bps.toNat ≤ s.bidx.toNat + 1) (hcopies : s.scale.toNat ≤ s.vrep.toNat + 1) :
    stepsDone s + 1 = (s.row.toNat + 1) * lineSteps s := by
  obtain ⟨_, _, hvrep, hbidx, _⟩ := h
  have hscale : s.scale.toNat = s.vrep.toNat + 1 := by omega
  have hbps : s.bps.toNat = s.bidx.toNat + 1 := by omega
  rw [stepsDone_replay hphase, Nat.succ_mul, lineSteps, hscale, hbps]
  ring

theorem stepsDone_emit {s : State} (hphase : s.phase = .replay) (h : ReplayInv s) (b : Byte) :
    stepsDone (afterEmit (pushByte b s)) = stepsDone s + 1 := by
  have hend := h.stepsDone_lineEnd hphase
  obtain ⟨_, hrow, hvrep, hbidx, hcol, hhrep, _, _, hpixv, _⟩ := h
  rcases afterEmit_pushByte_cases b s with
    ⟨_, i, hi, e⟩ | ⟨hlast, _, v, hv, e⟩ | ⟨hlast, hcopies, _, r, hr, e⟩ | ⟨hlast, hcopies, hrows, e⟩ <;> rw [e]
  · refine Eq.trans (stepsDone_replay hphase) ?_
    rw [stepsDone_replay hphase]
    simp only [hi, pushByte_fields, lineSteps]
    omega
  · have hbps : s.bps.toNat = s.bidx.toNat + 1 := by omega
    refine Eq.trans (stepsDone_replay hphase) ?_
    rw [stepsDone_replay hphase]
    simp only [hv, pushByte_fields, lineSteps, BitVec.toNat_ofNat, Nat.zero_mod, Nat.succ_mul]
    omega
  · rw [hend hlast hcopies]
    refine Eq.trans (stepsDone_pack rfl) ?_
    simp [hr, lineSteps, hcol, hpixv]
  · have hsrcH : s.row.toNat + 1 = s.srcH.toNat := by omega
    rw [hend hlast hcopies, hsrcH]
    exact stepsDone_idle rfl

/-- 43 R143: a micro-step that is taken counts one. -/
theorem MicroEffect.stepsDone {s t : State} (h : MicroEffect s t) (hinv : Inv s) :
    stepsDone t = stepsDone s + 1 := by
  cases h with
  | fetched hphase hpixv =>
    rw [stepsDone_pack hphase]
    refine Eq.trans (stepsDone_pack hphase) ?_
    simp [hpixv, lineSteps, Nat.add_assoc]
  | filled hphase hpixv =>
    obtain ⟨b, n, e, _⟩ := finishByte_eq s.depth.toNat s
    exact stepsDone_insert hphase (Inv.packing hinv hphase).1.taking hpixv ⟨_, _, _, _, _, _, e⟩
  | extended hphase hpixv =>
    exact stepsDone_insert hphase (Inv.packing hinv hphase).1.taking hpixv ⟨s.lb, s.draws, s.bidx, _, _, _, rfl⟩
  | turned hphase hpixv hcol =>
    rw [stepsDone_pack hphase]
    refine Eq.trans (stepsDone_replay rfl) ?_
    simp [hpixv, hcol, lineSteps, Nat.add_assoc]
  | flushed hphase hpixv hcol =>
    obtain ⟨b, n, e, _⟩ := storeByte_eq s.accTaint s.acc s
    rw [e, stepsDone_pack hphase]
    refine Eq.trans (stepsDone_replay rfl) ?_
    simp [hpixv, hcol, lineSteps, Nat.add_assoc]
  | emitted hphase => exact stepsDone_emit hphase (Inv.replay hinv hphase).1 _

/-! ### A busy block takes a micro-step (43 R133) -/

/-- 30 R75: at each of the four depths the row of the SEQ table is the INSERT of that depth. -/
theorem decodeInsert_exec {s : State} (hd : IsDepth s.depth.toNat) (e : Bool) :
    ∃ i, decodeInsert e s.depth = .ok i ∧ exec i s = insertCopy s.depth.toNat s := by
  rcases decodeInsert_cases hd e with ⟨h, hi⟩ | ⟨h, hi⟩ | ⟨h, hi⟩ | ⟨h, hi⟩
  all_goals exact ⟨_, hi, by rw [h]; rfl⟩

/-- With an empty agenda the turn is the block's, and it runs what the selector names. -/
theorem step_of_selector {s : State} (hagenda : s.agenda = []) {i : Instr}
    (hdecode : decode (.seq s.selector) = .ok i) : step s = exec i s := by
  have hword : turnWord s = some (.seq s.selector) := by rw [turnWord, hagenda]
  have hfetch : afterFetch s = s := by rw [afterFetch, hagenda]
  rw [stepRunsTheDecodedOperation s _ i hword hdecode, hfetch]

/-- 10 R28: with a pixel held an INSERT at the depth of the plan means something. -/
theorem Packing.insertReady {s : State} (h : Packing s) (hplan : PlanHolds s) (hphase : s.phase = .pack)
    (hpixv : s.pixv = true) : InsertReady s.depth.toNat s := by
  exact ⟨hphase, hpixv, by simp, h.plan, h.packs.slot_lt hplan.isDepth,
    fun _ => (h.bidx_lt_bps hplan hpixv).trans_le hplan.bps_le_lbBytes⟩

theorem microEffect_insert {s : State} (hd : IsDepth s.depth.toNat) (h : InsertReady s.depth.toNat s) :
    ∃ t, insertCopy s.depth.toNat s = .next t ∧ MicroEffect s t := by
  have ⟨hphase, hpixv, _, hvalid, hslot, hbidx⟩ := h
  by_cases hfull : s.slot.toNat + 1 = ppb s.depth.toNat
  · exact ⟨_, insertCopy_full h hfull, .filled hphase hpixv hd hvalid hfull (hbidx hfull)⟩
  · exact ⟨_, insertCopy_notFull h hfull, .extended hphase hpixv hd hvalid (by omega)⟩

theorem microEffect_eol {s : State} (hinv : Inv s) (hphase : s.phase = .pack) (hpixv : s.pixv = false)
    (hcol : s.col = s.srcW) (d : BitVec 4) : ∃ t, execEol d s = .next t ∧ MicroEffect s t := by
  obtain ⟨hpack, hplan⟩ := Inv.packing hinv hphase
  by_cases hslot : s.slot = 0#3
  · exact ⟨_, execEol_noByte hphase hpixv hcol hpack.plan hslot d, .turned hphase hpixv hcol hpack.plan hslot⟩
  · have hbps := hpack.bps_eq_bidx_succ hplan hpixv hcol hslot
    have hfit := hplan.bps_le_lbBytes
    have hbidx : s.bidx.toNat < s.lbBytes := by omega
    exact ⟨_, execEol_flush hphase hpixv hcol hpack.plan hslot hbidx d,
      .flushed hphase hpixv hcol hpack.plan hslot hbidx⟩

/-- A busy block with the sink ready and a pixel where one is missing takes the micro-step selected. -/
theorem microEffect_of_ready {s : State} (hinv : Inv s) (hbusy : s.phase ≠ .idle) (hagenda : s.agenda = [])
    (hready : s.sinkReady = true)
    (hin : s.phase = .pack → s.pixv = false → s.col.toNat < s.srcW.toNat → s.pixIn ≠ []) :
    ∃ t, step s = .next t ∧ MicroEffect s t := by
  cases hphase : s.phase with
  | idle => exact absurd hphase hbusy
  | replay =>
    obtain ⟨⟨hvalid, _, _, hline, _⟩, hplan⟩ := Inv.replay hinv hphase
    have hbidx := hline.trans_le hplan.bps_le_lbBytes
    rw [step_of_selector hagenda (decode_selector_emit hphase)]
    exact ⟨_, execEmit_enabled hphase hready hvalid hline hbidx s.pixv s.eolc s.depth,
      .emitted hphase hready hvalid hline hbidx⟩
  | pack =>
    obtain ⟨hpack, hplan⟩ := Inv.packing hinv hphase
    cases hpixv : s.pixv with
    | true =>
      obtain ⟨hcol, _⟩ := hpack.taking.held hpixv
      obtain ⟨i, hi, hexec⟩ := decodeInsert_exec hplan.isDepth false
      rw [step_of_selector hagenda ((decode_selector_insert hphase hpixv hcol).trans hi), hexec]
      exact microEffect_insert hplan.isDepth (hpack.insertReady hplan hphase hpixv)
    | false =>
      by_cases hcol : s.col = s.srcW
      · rw [step_of_selector hagenda (decode_selector_eol hphase hpixv hcol)]
        exact microEffect_eol hinv hphase hpixv hcol s.depth
      · have hlt := hpack.taking.col_lt hcol
        obtain ⟨p, rest, hpixIn⟩ := List.exists_cons_of_ne_nil (hin hphase hpixv hlt)
        rw [step_of_selector hagenda (decode_selector_fetch hphase hpixv hlt)]
        exact ⟨_, execFetch_cons hphase hpixv hlt hpack.plan hpixIn s.depth,
          .fetched hphase hpixv hlt hpack.plan p rest hpixIn⟩

/-! ### What a run keeps -/

theorem SameSetup.trans {s t u : State} (h₁ : SameSetup s t) (h₂ : SameSetup t u) : SameSetup s u := by
  obtain ⟨⟨hpal, hw, hh, hc⟩, hd, how, hoh, hn, hvalid⟩ := h₁
  obtain ⟨⟨hpal', hw', hh', hc'⟩, hd', how', hoh', hn', hvalid'⟩ := h₂
  exact ⟨⟨hpal'.trans hpal, hw'.trans hw, hh'.trans hh, hc'.trans hc⟩, hd'.trans hd, how'.trans how, hoh'.trans hoh,
    hn'.trans hn, hvalid'.trans hvalid⟩

/-- A pixel leaves `IN` as it is taken, and a byte goes to `OUT` as it is emitted. -/
theorem MicroEffect.streams {s t : State} (h : MicroEffect s t) :
    t.taken ++ t.pixIn = s.taken ++ s.pixIn ∧ ∃ bytes, t.emitted = s.emitted ++ bytes ∧ t.out = s.out ++ bytes := by
  cases h with
  | fetched _ _ _ _ p rest hin => exact ⟨by simp [hin], [], by simp, by simp⟩
  | filled =>
    obtain ⟨b, n, v, r, c, e⟩ := nextCopy_finishByte_eq s.depth.toNat s
    rw [e]; exact ⟨rfl, [], by simp, by simp⟩
  | extended =>
    obtain ⟨v, r, c, e⟩ := nextCopy_eq (extendByte s.depth.toNat s)
    rw [e]; exact ⟨rfl, [], by simp [extendByte], by simp [extendByte]⟩
  | turned => exact ⟨rfl, [], by simp, by simp⟩
  | flushed =>
    obtain ⟨b, n, e, _⟩ := storeByte_eq s.accTaint s.acc s
    rw [e]; exact ⟨rfl, [], by simp, by simp⟩
  | emitted =>
    obtain ⟨b, v, r, p, d, e⟩ := afterEmit_eq (pushByte (lbRead s.lb s.bidx.toNat) s)
    rw [e]; exact ⟨rfl, [_], rfl, rfl⟩

/-- 43 R141: a micro-step that ends the frame sets `DONE`. -/
theorem MicroEffect.done_of_idle {s t : State} (h : MicroEffect s t) (hidle : t.phase = .idle) : t.done = true := by
  cases h with
  | fetched hphase => cases hphase.symm.trans hidle
  | filled hphase =>
    obtain ⟨b, n, v, r, c, e⟩ := nextCopy_finishByte_eq s.depth.toNat s
    rw [e] at hidle
    cases hphase.symm.trans hidle
  | extended hphase =>
    obtain ⟨v, r, c, e⟩ := nextCopy_eq (extendByte s.depth.toNat s)
    rw [e] at hidle
    cases hphase.symm.trans hidle
  | turned | flushed => cases hidle
  | emitted hphase =>
    rcases afterEmit_cases (pushByte (lbRead s.lb s.bidx.toNat) s) with
      ⟨_, e⟩ | ⟨_, _, e⟩ | ⟨_, _, _, e⟩ | ⟨_, _, _, e⟩ <;> rw [e] at hidle ⊢
    · cases hphase.symm.trans hidle
    · cases hphase.symm.trans hidle
    · cases hidle

/-- What holds of `v` in the run of a frame that RAST started in `s` with the pixels `px ++ rest` in `IN`. -/
structure FrameRun (s : State) (px rest : List Byte) (v : State) : Prop where
  inv : Inv v
  setup : SameSetup s v
  oorMode : v.oorMode = s.oorMode
  agenda : v.agenda = []
  ready : v.sinkReady = true
  ovr : v.ovr = false
  err : v.err = .noError
  done : v.phase = .idle → v.done = true
  input : v.taken ++ v.pixIn = px ++ rest
  output : v.out = s.out ++ v.emitted

theorem FrameRun.microEffect {s v t : State} {px rest : List Byte} (h : FrameRun s px rest v)
    (heffect : MicroEffect v t) : FrameRun s px rest t := by
  obtain ⟨hconfig, hplan, hovr, herr, ⟨_, hmode⟩, ⟨hready, hagenda⟩, _⟩ := heffect.sameBesides
  obtain ⟨hinput, bytes, hemitted, hout⟩ := heffect.streams
  exact
    { inv := (TurnEffect.micro heffect).inv h.inv
      setup := h.setup.trans ⟨hconfig, hplan⟩
      oorMode := hmode.trans h.oorMode
      agenda := hagenda.trans h.agenda
      ready := hready.trans h.ready
      ovr := hovr.trans h.ovr
      err := herr.trans h.err
      done := heffect.done_of_idle
      input := hinput.trans h.input
      output := by rw [hout, hemitted, h.output, List.append_assoc] }

/-- While a scanline lacks a pixel, fewer than the frame's pixels are taken, so one is in `IN`. -/
theorem FrameRun.pixIn_ne_nil {s v : State} {px rest : List Byte} (h : FrameRun s px rest v)
    (hpx : px.length = s.srcW.toNat * s.srcH.toNat) (hphase : v.phase = .pack) (hpixv : v.pixv = false)
    (hcol : v.col.toNat < v.srcW.toNat) : v.pixIn ≠ [] := by
  obtain ⟨hpack, _⟩ := Inv.packing h.inv hphase
  obtain ⟨⟨_, hw, hh, _⟩, _⟩ := h.setup
  have htaken : v.taken.length = v.row.toNat * v.srcW.toNat + v.col.toNat := by simpa [hpixv] using hpack.taking.length
  have hlt := Nat.mul_add_lt_mul_of_lt_of_lt hpack.row_lt hcol
  have hlength := congrArg List.length h.input
  intro hnil
  rw [List.length_append, List.length_append, hpx, hnil, htaken, ← hw, ← hh, Nat.mul_comm v.row.toNat,
    Nat.mul_comm v.srcW.toNat v.srcH.toNat, List.length_nil] at hlength
  omega

theorem FrameRun.lineSteps_eq {s v : State} {px rest : List Byte} (h : FrameRun s px rest v) :
    v.srcH.toNat * lineSteps v = s.srcH.toNat * lineSteps s := by
  obtain ⟨⟨_, hw, hh, hc⟩, _, _, _, hn, _⟩ := h.setup
  rw [lineSteps, lineSteps, hw, hh, hc, hn]

/-- 43 R142, R143: until the frame's micro-steps are taken, a turn takes one of them. -/
theorem FrameRun.step {s v : State} {px rest : List Byte} (h : FrameRun s px rest v)
    (hpx : px.length = s.srcW.toNat * s.srcH.toNat) (hmore : stepsDone v < s.srcH.toNat * lineSteps s) :
    ∃ t, step v = .next t ∧ FrameRun s px rest t ∧ stepsDone t = stepsDone v + 1 := by
  have hbusy : v.phase ≠ .idle := fun hidle => by
    rw [stepsDone_idle hidle, h.lineSteps_eq] at hmore
    exact absurd hmore (lt_irrefl _)
  obtain ⟨t, hstep, heffect⟩ := microEffect_of_ready h.inv hbusy h.agenda h.ready (h.pixIn_ne_nil hpx)
  exact ⟨t, hstep, h.microEffect heffect, heffect.stepsDone h.inv⟩

/-- 43 R128: the run begins with no micro-step taken. -/
theorem frameRun_start {s : State} {px rest : List Byte} (hinv : Inv s) (hidle : s.phase = .idle)
    (hvalid : s.planValid = true) (hrows : 1 ≤ s.srcH.toNat) (hagenda : s.agenda = []) (hready : s.sinkReady = true)
    (hin : s.pixIn = px ++ rest) :
    FrameRun s px rest (startFrame (clearFlags s)) ∧ stepsDone (startFrame (clearFlags s)) = 0 := by
  have hinv' := (TurnEffect.started hidle hvalid).inv hinv
  obtain ⟨_, hplan, _⟩ := hinv
  have houtH : s.outH ≠ 0#32 := fun h => by simp [(hplan.1 hvalid).outH_eq_zero_iff.1 h] at hrows
  rw [startFrame_frame (s := clearFlags s) houtH] at hinv' ⊢
  refine ⟨?_, ?_⟩
  · exact
      { inv := hinv'
        setup := sameSetup_refl s
        oorMode := rfl
        agenda := hagenda
        ready := hready
        ovr := rfl
        err := rfl
        done := nofun
        input := hin
        output := (List.append_nil _).symm }
  · rw [stepsDone_pack rfl]
    simp

/-- 43 R142: what a run has done once the block is idle. -/
theorem FrameRun.finished {s v : State} {px rest : List Byte} (h : FrameRun s px rest v) (hvalid : s.planValid = true)
    (hpx : px.length = s.srcW.toNat * s.srcH.toNat)
    (hdet : s.oorMode = .truncate ∨ PixelsInPalette s.palLen.toNat px) (hidle : v.phase = .idle) :
    v.out = s.out ++ frame px s.srcW.toNat s.srcH.toNat s.scale.toNat s.depth.toNat ∧ v.pixIn = rest
      ∧ v.statusWord = 6#32 := by
  obtain ⟨⟨hpal, hw, hh, hc⟩, hd, _, _, _, hplan⟩ := h.setup
  have hplanned := hplan.trans hvalid
  obtain ⟨_, _, _, _, hidleInv, _⟩ := h.inv
  obtain ⟨_, _, _, _, _, _, _, _, _, hrun⟩ := hidleInv hidle
  obtain ⟨htaken, _, hframe⟩ := hrun (h.done hidle) hplanned
  rw [hw, hh, ← hpx] at htaken
  obtain ⟨rfl, hrest⟩ := List.append_inj h.input htaken
  have hdetermined : Determined v := by rw [Determined, h.oorMode, hpal]; exact hdet
  refine ⟨?_, hrest, statusWord_done hidle hplanned (h.done hidle) h.ovr h.err⟩
  rw [h.output, hframe hdetermined, hw, hh, hc, hd]

/-! ### The run -/

theorem run_succ {M : Host.Core} {s u : M.State} (h : M.step s = .next u) (n : Nat) : M.run (n + 1) s = M.run n u := by
  rw [Host.Core.run, h]

/-- A predicate of the number of turns that every turn hands on, up to `N` turns, holds of every state of the run. -/
theorem run_counts {P : Nat → State → Prop} {N : Nat}
    (hstep : ∀ k s, k < N → P k s → ∃ t, step s = .next t ∧ P (k + 1) t) {n k : Nat} {s : State} (hs : P k s)
    (hn : k + n ≤ N) : ∃ t, Sys2Proof.core.run n s = .next t ∧ P (k + n) t := by
  induction n generalizing k s with
  | zero => exact ⟨s, rfl, hs⟩
  | succ n ih =>
    obtain ⟨u, hu, hP⟩ := hstep k s (by omega) hs
    obtain ⟨t, hrun, ht⟩ := ih hP (by omega)
    exact ⟨t, (run_succ (M := Sys2Proof.core) hu n).trans hrun, by rwa [Nat.succ_add_eq_add_succ] at ht⟩

/-- Settles O54: from `frameRun_start` each turn counts one micro-step; before the last the count says that the block is
busy, and with the last that it is idle. -/
theorem uninterruptedFrameRun : Obligations.UninterruptedFrameRun := by
  intro s px rest hinv hidle hvalid hrows hagenda hready hin hpx hdet
  obtain ⟨hstart, hzero⟩ := frameRun_start hinv hidle hvalid hrows hagenda hready hin
  have ⟨_, hplan, _⟩ := hinv
  rw [frameSteps_eq (hplan.1 hvalid)]
  have hrun : ∀ n ≤ s.srcH.toNat * lineSteps s, ∃ v, Sys2Proof.core.run n (startFrame (clearFlags s)) = .next v
      ∧ FrameRun s px rest v ∧ stepsDone v = n := fun n hn => by
    have hreach := run_counts (P := fun k v => FrameRun s px rest v ∧ stepsDone v = k)
      (fun k v hk ⟨hv, hcount⟩ => by subst hcount; exact hv.step hpx hk) (n := n) ⟨hstart, hzero⟩
      (by rwa [Nat.zero_add])
    rwa [Nat.zero_add] at hreach
  obtain ⟨u, hu, hframe, hcount⟩ := hrun _ le_rfl
  have hend : u.phase = .idle := by
    by_contra hbusy
    have hlt := stepsDone_lt_of_busy hframe.inv hbusy
    rw [hcount, hframe.lineSteps_eq] at hlt
    exact absurd hlt (lt_irrefl _)
  obtain ⟨hout, hpixIn, hstatus⟩ := hframe.finished hvalid hpx hdet hend
  refine ⟨_, u, ?_, hu, hout, hpixIn, hend, hstatus, fun n hn => ?_⟩
  · rw [exec_rast_idle hidle, doRast_plan (s := clearFlags s) hvalid]
  · obtain ⟨v, hv, hframe, hcount⟩ := hrun n hn.le
    refine ⟨v, hv, fun hidle => ?_⟩
    rw [← hcount, stepsDone_idle hidle, hframe.lineSteps_eq] at hn
    exact absurd hn (lt_irrefl _)

end Sys2Proof.Machine
end

section
/-! PROOF. The palette chunk and the transparency table (spec/44). The chunk is glued from triples, so `take_drop_flatMap`
reads it. The lazy construction keeps `tableSoFar`: once allocated, the table of the entries seen, padded with 255 for the
entries to come. Before that every entry seen is RGB, so the fresh table of 255s holds those same bytes
(`getD_tableSoFar`). -/

namespace Sys2Proof.Machine

/-! ### One colour (44 R155) -/

@[simp] theorem Color.length_triple (c : Color) : c.triple.length = 3 := by cases c <;> rfl

theorem Color.hasAlpha_iff (c : Color) : c.hasAlpha = true ↔ ∃ r g b a, c = .rgba r g b a := by
  cases c <;> simp [Color.hasAlpha]

theorem Color.alpha_of_not_hasAlpha {c : Color} (h : c.hasAlpha = false) : c.alpha = 255#8 := by
  cases c with
  | rgb => rfl
  | rgba => cases h

/-! ### The palette chunk (44 R157) -/

theorem length_plte (pal : List Color) : (plte pal).length = 3 * pal.length := by
  simp [plte, Nat.mul_comm]

theorem plte_entry {pal : List Color} {i : Nat} {c : Color} (h : pal[i]? = some c) :
    ((plte pal).drop (3 * i)).take 3 = c.triple := by
  rw [Nat.mul_comm]
  exact take_drop_flatMap Color.length_triple h

/-! ### The transparency table (44 R158, R159) -/

theorem trns_of_any {pal : List Color} (h : pal.any Color.hasAlpha = true) : trns pal = some (pal.map Color.alpha) :=
  if_pos h

theorem trns_of_not_any {pal : List Color} (h : pal.any Color.hasAlpha = false) : trns pal = none := by
  simp [trns, h]

theorem trns_eq_some {pal : List Color} {table : List Byte} (h : trns pal = some table) :
    table = pal.map Color.alpha := by
  cases hany : pal.any Color.hasAlpha with
  | false => cases (trns_of_not_any hany).symm.trans h
  | true => exact (Option.some.inj ((trns_of_any hany).symm.trans h)).symm

theorem trns_ne_none_iff (pal : List Color) : trns pal ≠ none ↔ ∃ c ∈ pal, ∃ r g b a, c = .rgba r g b a := by
  have hany : trns pal ≠ none ↔ pal.any Color.hasAlpha = true := by simp [trns]
  rw [hany, List.any_eq_true]
  simp only [Color.hasAlpha_iff]

theorem trns_entry {pal : List Color} {table : List Byte} (h : trns pal = some table) {i : Nat} {c : Color}
    (hc : pal[i]? = some c) : table[i]? = some c.alpha := by
  rw [trns_eq_some h, List.getElem?_map, hc, Option.map_some]

/-- A palette without RGBA entries would get a table of 255s only. -/
theorem map_alpha_of_not_any {pal : List Color} (h : pal.any Color.hasAlpha = false) :
    pal.map Color.alpha = List.replicate pal.length 255#8 := by
  rw [List.any_eq_false] at h
  exact List.map_eq_replicate_iff.2 fun c hc => Color.alpha_of_not_hasAlpha (Bool.eq_false_iff.2 (h c hc))

/-! ### The lazy construction (44 R160) -/

theorem trnsVisit_rgba (n : Nat) (table : Option (List Byte)) (r g b a : Byte) (i : Nat) :
    trnsVisit n table (.rgba r g b a, i) = some ((table.getD (List.replicate n 255#8)).set i a) := rfl

/-- The lazy construction's table after the entries `seen`, with `m` entries to come. -/
def tableSoFar (seen : List Color) (m : Nat) : Option (List Byte) := (trns seen).map (· ++ List.replicate m 255#8)

theorem tableSoFar_zero (seen : List Color) : tableSoFar seen 0 = trns seen := by
  simp [tableSoFar]

/-- The table an RGBA entry stores into holds the same bytes whether it was allocated before or is allocated now. -/
theorem getD_tableSoFar (seen : List Color) (m : Nat) :
    (tableSoFar seen m).getD (List.replicate (seen.length + m) 255#8)
      = seen.map Color.alpha ++ List.replicate m 255#8 := by
  unfold tableSoFar
  cases hany : seen.any Color.hasAlpha with
  | false => rw [trns_of_not_any hany, map_alpha_of_not_any hany, List.replicate_append_replicate]; rfl
  | true => rw [trns_of_any hany]; rfl

theorem tableSoFar_snoc_rgb (seen : List Color) (r g b : Byte) (m : Nat) :
    tableSoFar (seen ++ [.rgb r g b]) m = tableSoFar seen (m + 1) := by
  simp [tableSoFar, trns, Color.hasAlpha, Color.alpha, List.replicate_succ, apply_ite]

theorem tableSoFar_snoc_rgba (seen : List Color) (r g b a : Byte) (m : Nat) :
    tableSoFar (seen ++ [.rgba r g b a]) m = some (seen.map Color.alpha ++ a :: List.replicate m 255#8) := by
  simp [tableSoFar, trns, Color.hasAlpha, Color.alpha]

theorem trnsVisit_tableSoFar (seen : List Color) (c : Color) (m : Nat) :
    trnsVisit (seen.length + (m + 1)) (tableSoFar seen (m + 1)) (c, seen.length) = tableSoFar (seen ++ [c]) m := by
  cases c with
  | rgb r g b => exact (tableSoFar_snoc_rgb seen r g b m).symm
  | rgba r g b a =>
    rw [trnsVisit_rgba, getD_tableSoFar, tableSoFar_snoc_rgba]
    simp [List.replicate_succ, List.set_append_right]

/-- The rest of the traversal completes the table of the entries seen. -/
theorem foldl_trnsVisit_tableSoFar (seen rest : List Color) :
    (rest.zipIdx seen.length).foldl (trnsVisit (seen.length + rest.length)) (tableSoFar seen rest.length)
      = trns (seen ++ rest) := by
  induction rest generalizing seen with
  | nil => rw [List.append_nil]; exact tableSoFar_zero seen
  | cons c rest ih =>
    rw [List.zipIdx_cons, List.foldl_cons, List.length_cons, trnsVisit_tableSoFar]
    simpa [Nat.add_assoc, Nat.add_comm 1] using ih (seen ++ [c])

theorem trnsLazy_eq_trns (pal : List Color) : trnsLazy pal = trns pal := by
  simpa [trnsLazy, tableSoFar, trns] using foldl_trnsVisit_tableSoFar [] pal

/-- Settles O59: the chunk and the table entry by entry, and `trnsLazy_eq_trns`. -/
theorem paletteChunks : Obligations.PaletteChunks := fun pal =>
  ⟨length_plte pal, fun _ _ _ _ => plte_entry, fun _ _ _ _ _ => plte_entry, trns_ne_none_iff pal,
    fun _ htable => ⟨by rw [trns_eq_some htable, List.length_map], fun _ _ _ _ => trns_entry htable,
      fun _ _ _ _ _ => trns_entry htable⟩,
    trnsLazy_eq_trns pal⟩

end Sys2Proof.Machine
end

section
/-! PROOF. Errors (60 R173, R174): what error entry writes, code by code, and that the only turns that raise an error are
commands issued while idle, before any pixel is taken or byte emitted. -/

namespace Sys2Proof.Machine

/-! ### Error entry (60 R173) -/

/-- The planner's failures are the codes 1 to 4. -/
theorem ErrCode.isPlanner_iff {code : ErrCode} (h : code ≠ .noError) : code.isPlanner = true ↔ code.code.toNat ≤ 4 := by
  cases code with
  | noError => exact absurd rfl h
  | paletteTooBig | paletteTooSmall | zeroDim | lineTooLong | noPlan | badCmd => decide

theorem planDropped_raiseError {code : ErrCode} (h : code.isPlanner = true) (s : State) :
    PlanDropped (raiseError code s) := by
  rw [raiseError_planner h]
  and_intros <;> rfl

theorem samePlan_raiseError {code : ErrCode} (h : code.isPlanner = false) (s : State) :
    SamePlan s (raiseError code s) := by
  rw [raiseError_other h]
  and_intros <;> rfl

/-- Whichever the code, an error leaves alone at least what an accepted PLAN does. -/
theorem keptByPlan_raiseError_any (code : ErrCode) (s : State) : KeptByPlan s (raiseError code s) := by
  cases h : code.isPlanner
  · rw [raiseError_other h]
    exact ⟨⟨⟨rfl, rfl, rfl, rfl⟩, sameOutside_refl s⟩, by and_intros <;> rfl, ⟨rfl, rfl⟩, rfl, rfl⟩
  · exact keptByPlan_raiseError h s

/-- Settles O27: the split at code 4 is that between the planner's failures and the other errors. -/
theorem errorEntry : Obligations.ErrorEntry := by
  intro s code hne
  have hkept := keptByPlan_raiseError_any code s
  refine ⟨(raiseError_params_err code s).2, fun hle => planDropped_raiseError ((ErrCode.isPlanner_iff hne).2 hle) s,
    fun hlt => samePlan_raiseError ?_ s, hkept.done, hkept.ovr, hkept.sequencer, hkept.besides, hkept.run⟩
  exact Bool.eq_false_iff.2 fun hplanner => Nat.not_le.2 hlt ((ErrCode.isPlanner_iff hne).1 hplanner)

/-! ### Where errors come from (60 R174) -/

/-- An error was entered while idle, and the block took, emitted and started nothing. -/
abbrev ErrorEntered (s t : State) : Prop :=
  s.phase = .idle ∧ t.phase = .idle ∧ SameStreams s t ∧ SameConfig s t ∧ SameLineBuffer s t ∧ SameRun s t

theorem errorEntered_raiseError (code : ErrCode) {s : State} (hidle : s.phase = .idle) :
    ErrorEntered s (raiseError code s) := by
  have hkept := keptByPlan_raiseError_any code s
  obtain ⟨hconfig, _, hlb, hstreams, _⟩ := hkept.besides
  obtain ⟨hphase, _⟩ := hkept.sequencer
  exact ⟨hidle, hphase.trans hidle, hstreams, hconfig, hlb, hkept.run⟩

/-- A turn leaves `ERR`, clears it, or enters an error. -/
theorem TurnEffect.err {s t : State} (h : TurnEffect s t) :
    t.err = s.err ∨ t.err = .noError ∨ ErrorEntered s t := by
  cases h with
  | traffic | dropped => exact .inl rfl
  | badCmd hidle => exact .inr (.inr (errorEntered_raiseError _ hidle))
  | configured _ idx v => exact .inl (keepsErr_configStore idx v s).err
  | failed hidle | noPlan hidle => exact .inr (.inr (errorEntered_raiseError (s := clearFlags s) _ hidle))
  | planned | abort | reset => exact .inr (.inl rfl)
  | started => exact .inr (.inl (keepsErr_startFrame (clearFlags s)).err)
  | rendered => exact .inr (.inl (keepsErr_startFrame (commitPlan _ _ _ _ (clearFlags s))).err)
  | micro h =>
    obtain ⟨_, _, _, herr, _⟩ := h.sameBesides
    exact .inl herr

/-- The operations that can raise an error: PLAN, RAST, RENDER and a REGWR to `CMD`. -/
abbrev RaisesErrors (i : Instr) : Prop := i = .plan ∨ i = .rast ∨ i = .render ∨ ∃ c, i = .regwr 0#4 c

/-- 40 R82: a REGWR that issues no command leaves `ERR`. -/
theorem keepsErr_execRegwr {idx : BitVec 4} (hidx : idx ≠ 0#4) {data : Word} {s t : State}
    (h : execRegwr idx data s = .next t) : KeepsErr s t := by
  rw [execRegwr, if_neg hidx] at h
  split at h <;> cases h
  · exact keepsErr_configWrite idx data s
  · exact .refl s

/-- Every other operation leaves `ERR` or, as ABORT does, clears it. -/
theorem exec_err {i : Instr} {s t : State} (h : exec i s = .next t) :
    t.err = s.err ∨ t.err = .noError ∨ RaisesErrors i := by
  cases i with
  | regrd | nop | pixpush => cases h; exact .inl rfl
  | regwr idx data =>
    by_cases hidx : idx = 0#4
    · exact .inr (.inr (.inr (.inr (.inr ⟨data, by rw [hidx]⟩))))
    · exact .inl (keepsErr_execRegwr hidx h).err
  | plan => exact .inr (.inr (.inl rfl))
  | rast => exact .inr (.inr (.inr (.inl rfl)))
  | render => exact .inr (.inr (.inr (.inr (.inl rfl))))
  | abort => cases h; exact .inr (.inl rfl)
  | bytepop bus => exact .inl (keepsErr_execBytepop (bus := bus) h).err
  | fetch | insert1 | insert2 | insert4 | insert8 | eol | emit => exact .inl (keepsErr_microStep rfl h).err

/-- An operation after which an error code shows that did not show before is one that raises errors, and it entered the
error while idle. -/
theorem exec_err_new {i : Instr} {s t : State} (h : exec i s = .next t) (hshown : t.err ≠ .noError)
    (hnew : t.err ≠ s.err) : ErrorEntered s t ∧ RaisesErrors i :=
  ⟨((turnEffect_exec h).err.resolve_left hnew).resolve_left hshown,
    ((exec_err h).resolve_left hnew).resolve_left hshown⟩

/-- Settles O51: `exec_err_new` on the state with the event off the agenda; the turns that run no operation leave `ERR`
or, as the reset does, clear it. -/
theorem errorsArePreciseAndEarly : Obligations.ErrorsArePreciseAndEarly := by
  refine ⟨fun s t hstep hshown => ?_, fun i s t hi h => (keepsErr_microStep hi h).err⟩
  by_cases hnew : t.err = s.err
  · exact .inl hnew
  obtain ⟨ready, rest, e⟩ := afterFetch_same s
  have hturn := step_next hstep
  rw [e] at hturn
  rcases hturn with ⟨i, hi, hexec⟩ | ⟨_, _, _, _, rfl⟩ | ⟨_, _, rfl⟩ | ⟨_, _, rfl⟩
  · obtain ⟨⟨hidle, hstill, hstreams, hconfig, hlb, hrun⟩, hraises⟩ := exec_err_new hexec hshown hnew
    rw [hi]
    simp only [Option.some.injEq]
    exact .inr ⟨hidle, hstill, hstreams, hconfig, hlb, hrun, hraises⟩
  · exact absurd rfl hnew
  · exact absurd rfl hshown
  · exact absurd rfl hnew

end Sys2Proof.Machine
end

section
/-! PROOF. Reset (70 R190 to R192): what a reset turn writes, what it leaves, and how it differs from ABORT. The launch
state is a state just reset, so it reads as any of them does. -/

namespace Sys2Proof.Machine

/-! ### The state after a reset -/

theorem statusWord_hardReset (s : State) : (hardReset s).statusWord = 0#32 := by
  simp [State.statusWord, State.busy, ErrCode.code]

/-- 70 R190: index by index, what a REGRD finds after a reset. -/
theorem regRead_hardReset (idx : BitVec 4) (s : State) : regRead idx (hardReset s) = 0#32 := by
  unfold regRead
  split
  case h_1 => exact statusWord_hardReset s
  all_goals rfl

/-- 43 R130, 70 R190: ABORT and reset both end by zeroing the sequencer. -/
theorem sequencerZero_zeroSequencer (s : State) : SequencerZero (zeroSequencer s) := by and_intros <;> rfl

theorem sequencerZero_hardReset (s : State) : SequencerZero (hardReset s) := sequencerZero_zeroSequencer _

theorem decode_selector_hardReset (s : State) : decode (.seq (hardReset s).selector) = .error .seqIdle :=
  decode_selector_idle rfl

theorem sameOutside_hardReset (s : State) : SameOutside s (hardReset s) := sameOutside_refl s

/-- 70 R192: a reset finds nothing to do in the launch state. -/
theorem hardReset_reset : hardReset State.reset = State.reset := rfl

/-- 70 R191: all that a reset does beyond an ABORT. -/
theorem hardReset_eq_doAbort (s : State) :
    hardReset s = { doAbort s with
      palLen := 0#16, srcW := 0#16, srcH := 0#16, scale := 0#16, depth := 0#4, outW := 0#32, outH := 0#32,
      bps := 0#32, planValid := false } := rfl

/-! ### The reset turn -/

theorem step_reset {s : State} {rest : List Event} (h : s.agenda = .reset :: rest) :
    step s = .next (hardReset { s with agenda := rest }) := step_eq_runEvent h

/-- Settles O1: the launch state is the state a reset leaves. -/
theorem launchStateReadsZero : Obligations.LaunchStateReadsZero := by
  unfold Obligations.LaunchStateReadsZero
  rw [← hardReset_reset]
  exact ⟨fun idx => regRead_hardReset idx _, sequencerZero_hardReset _, decode_selector_hardReset _, rfl, rfl, rfl⟩

/-- Settles O2: a reset writes the registers and the sequencer, and keeps what lies outside the block. -/
theorem resetClearsRegistersOnly : Obligations.ResetClearsRegistersOnly := by
  intro s rest h
  obtain ⟨hparams, hlb, hstreams, ⟨_, hagenda⟩, hhost, _⟩ := sameOutside_hardReset { s with agenda := rest }
  exact ⟨_, step_reset h, hagenda, fun idx => regRead_hardReset idx _, sequencerZero_hardReset _,
    decode_selector_hardReset _, hlb, hstreams, hparams, hhost⟩

/-- Settles O3: `hardReset_eq_doAbort` on the state with the event off the agenda; ABORT keeps the configuration and the
plan, and a reset the streams. -/
theorem resetIsAbortAndCleared : Obligations.ResetIsAbortAndCleared := by
  intro s rest h
  obtain ⟨hconfig, hplan⟩ := sameSetup_doAbort { s with agenda := rest }
  obtain ⟨_, _, ⟨hpixIn, hout⟩, _⟩ := sameOutside_hardReset { s with agenda := rest }
  exact ⟨_, _, step_reset h, rfl, hardReset_eq_doAbort _, sequencerZero_zeroSequencer _, hconfig, hplan, rfl, rfl, rfl,
    hout, hpixIn, rfl⟩

end Sys2Proof.Machine
end
